-- ==== Sys2Proof/Word.lean ====
section
/-! DEFINITION. Bytes, moments, the indexes of the LB-64's tables, and a table of fixed size. -/

namespace Sys2Proof

/-- One character of a frame (07 R129: eight data bits). -/
abbrev Byte := BitVec 8

/-- A 4-bit station address (00_scope 5.5). -/
abbrev Station := BitVec 4

/-- A moment or a length of internal time, in microseconds (log 2). -/
abbrev Time := Nat

/-- A slot of the Reservation Table (01 R1). -/
abbrev Slot := Fin 256

/-- A column: index 0 stands for station 1 (00_scope 5.1). -/
abbrev Col := Fin 8

/-- A position within a column: index 0 stands for position 1. -/
abbrev Pos := Fin 8

/-- A locker: index 0 stands for locker number 1. -/
abbrev LockerId := Fin 64

/-- A food class 0 to 3 (05 R97). -/
abbrev ClassId := Fin 4

/-- A table of exactly `n` records: a list with its length. -/
structure Bank (α : Type) (n : Nat) where
  cells : List α
  size : cells.length = n
deriving DecidableEq, Repr

namespace Bank

variable {α β : Type} {n : Nat}

/-- The record at an index. -/
def get (b : Bank α n) (i : Fin n) : α := b.cells[i.val]'(by rw [b.size]; exact i.isLt)

/-- The table with one record replaced. -/
def set (b : Bank α n) (i : Fin n) (v : α) : Bank α n :=
  ⟨b.cells.set i.val v, by rw [List.length_set]; exact b.size⟩

/-- The table that holds the same record everywhere. -/
def fill (n : Nat) (v : α) : Bank α n := ⟨List.replicate n v, List.length_replicate⟩

/-- The table whose record at `i` is `f i`. -/
def build (f : Fin n → α) : Bank α n := ⟨(List.finRange n).map f, by simp⟩

/-- Every record changed by the same function. -/
def map (b : Bank α n) (f : α → β) : Bank β n := ⟨b.cells.map f, by simp [b.size]⟩

/-- The lowest index whose record satisfies `p`. -/
def find (b : Bank α n) (p : α → Bool) : Option (Fin n) :=
  match b.cells.findIdx? p with
  | some k => if h : k < n then some ⟨k, h⟩ else none
  | none => none

/-- The records with their indexes, in index order. -/
def pairs (b : Bank α n) : List (Fin n × α) := (List.finRange n).zip b.cells

/-- How many records satisfy `p`. -/
def count (b : Bank α n) (p : α → Bool) : Nat := b.cells.countP p

end Bank

end Sys2Proof
end

