-- ==== Sys2Proof/Syntax.lean ====
section
/-! DEFINITION. The commands of the LB-64: one constructor for each row of spec/opcode_table.json. -/

namespace Sys2Proof

/-- A receiver of the part (07 section 7.2). -/
inductive Port where
  | server
  | column
deriving DecidableEq, Repr

/-- A character as it arrives on a line (07 R129, R132, R133). -/
structure LineChar where
  /-- The moment its start bit begins. -/
  start : Time
  /-- Its eight bits; none for a framing error or an overrun. -/
  byte : Option Byte
deriving DecidableEq, Repr

/-- The commands. A request that MI takes has no operand: the frame at the head of the Server Inbox holds
its fields (11 R197). The operands of the others are what the event itself brings (log 1): characters come
with the moments at which they begin. -/
inductive Instr where
  /-- POWER_ON_RESET (01 R26). -/
  | powerOnReset
  /-- CHARACTER_ERROR (07 R133): the characters up to the one in error. -/
  | characterError (port : Port) (chars : List LineChar)
  /-- CHARACTER_GAP_TIMEOUT (07 R132): after `chars`, the gap limit runs out. -/
  | characterGapTimeout (port : Port) (chars : List LineChar)
  /-- SERVER_FRAME_RECEIVED (07 R134). -/
  | serverFrameReceived (chars : List LineChar)
  | resPut
  | resDrop
  | resShift
  | trainShift
  | resRead
  | clockSet
  | lockerRead
  | faultClear
  | classSet
  | columnSet
  | purgeAbort
  | rollCall
  | columnRead
  | filterSet
  | modeSet
  | statsRead
  | restart
  | unknownKind
  | passThrough
  | restartTakesEffect
  | transmitEnd
  | courtTimeAdvance
  | windowClose (slot : Slot)
  | holdDeadline (locker : LockerId)
  | lockoutEnd (column : Col)
  | settleEnd (column : Col)
  | purgeStall (locker : LockerId)
  | restEnd (locker : LockerId)
  | trainShiftVisit
  | heatPeriodExpiry (column : Col)
  | doorHeld (locker : LockerId)
  | pollTimerExpiry
  | portGrant
  | retry
  | tryTimeout
  /-- COLUMN_REPLY (08 R149): the characters of the reply. -/
  | columnReply (chars : List LineChar)
  /-- COLUMN_FRAME_CORRUPT (07 R135): the characters of the frame. -/
  | columnFrameCorrupt (chars : List LineChar)
  | broadcastSent
  /-- POLL_END (08 R153): the characters heard since the POLL frame, in the order they began. -/
  | pollEnd (chars : List LineChar)
  /-- BAD_LENGTH (07 R132): the characters up to a length above 48. -/
  | badLength (port : Port) (chars : List LineChar)
  | resetAsserted
deriving DecidableEq, Repr

end Sys2Proof
end

