-- ==== Sys2Proof/Decode.lean ====
section
/-! DEFINITION. The commands that a word of the table's bits spells: no row of spec/opcode_table.json
gives bits, so no word spells one. -/

namespace Sys2Proof

/-- The command that `nbits` bits of value `w` spell by the table (none: the table gives no row bits). -/
def decodeTableWord (_nbits _w : Nat) : Option Instr := none

end Sys2Proof
end

