-- ==== Sys2Proof/Config.lean ====
section
/-! DEFINITION. The limits and intervals the manual fixes, and the values it leaves open. -/

namespace Sys2Proof.Config

/-- Which of several deadlines that fall due at one CLOCK-SET is taken next (01 R10 and R13 give no order
among them: "Whichever is taken first"). FREE VALUE (log 7): applied to the counter `choices` of State;
the answer is reduced modulo the number of deadlines left. -/
opaque dueOrder : Nat → Nat

/-- What the two argument bytes of LOCKED carry when the seconds remaining do not fit in them: a CLOCK-SET far
backward leaves a lockout that far ahead, and no rule gives the bytes (03 R56, 07 R137). FREE VALUE (log 30):
applied to the seconds. -/
opaque lockedArgument : Nat → BitVec 16

/-- Whether a walk brings a locker with a door operation outstanding to rest: 06 R127 brings a PURGING locker, and a
PURGE-WAIT or EMPTY one whose purge it finds running, to PURGE-REST, 10 R193 lets every locker with a door operation
outstanding keep its state, and no rule puts one before the other. FREE VALUE (log 17): applied to internal time and
the number of the locker. -/
opaque restOverDoor : Nat → Nat → Bool

/-- A number of milliseconds as internal time. -/
def ms (n : Nat) : Time := n * 1000

/-- The highest court time (01 R8), and where a 32-bit count saturates (07 Table 7-9). -/
def maxCourt : Nat := 4294967295

/-- Server Inbox entries (11 R196). -/
def inboxSize : Nat := 4

/-- Reply queue entries (11 R198). -/
def replySize : Nat := 8

/-- Notice queue entries (11 R199). -/
def noticeSize : Nat := 64

/-- Entries of the Operation Queue shared by every operation but POLL (09 R167). -/
def sharedEntries : Nat := 31

/-- Seconds a lockout lasts (03 R58). -/
def lockoutSeconds : Nat := 60

/-- Seconds a column settles (10 R184). -/
def settleSeconds : Nat := 90

/-- Seconds after which a purge is stalled (06 R123). -/
def stallSeconds : Nat := 600

/-- Seconds a locker rests after an abort (06 R126). -/
def restSeconds : Nat := 120

/-- The bounce mask (02 R42). -/
def bounceMask : Time := ms 300

/-- The heat period (05 R101). -/
def heatPeriod : Time := ms 10000

/-- The poll interval (10 R180). -/
def pollPeriod : Time := ms 40

/-- The spacing between exchanges with one column (08 R151). -/
def columnSpacing : Time := ms 10

/-- The interval between UNTIL-MET attempts (08 R155). -/
def attemptSpacing : Time := ms 100

/-- The turnaround after the line is released, and the least wait before a retry (08 R148, R150). -/
def turnaround : Time := 200

/-- The reply window, counted from the end of the request (08 R149). -/
def replyWindow : Time := ms 8

/-- The end of poll slot 8, counted from the end of the POLL frame (08 R153). -/
def pollSlots : Time := 8500

/-- The character gap limit of the server port (07 R132). -/
def serverGapLimit : Time := ms 2

/-- The character gap limit of the column line (07 R132). -/
def columnGapLimit : Time := ms 1

/-- The opening of poll slot 1, counted from the end of the POLL frame (08 R153). -/
def slotsOpen : Time := 500

/-- The length of a poll slot, and the distance from one to the next (08 R153). -/
def slotLength : Time := ms 1

/-- Ten bits at 230,400 bit/s, rounded down (00_scope 6, log 4). -/
def serverCharTime : Time := 10000000 / 230400

/-- Ten bits at 115,200 bit/s, rounded down (00_scope 6, log 4). -/
def columnCharTime : Time := 10000000 / 115200

/-- The least time `n` characters take on the column line: ten bits each at 115,200 bit/s (00_scope 6),
without the gaps of under 0.1 ms that 07 R129 allows between them (log 4). -/
def lineTime (n : Nat) : Time := n * 10000000 / 115200

end Sys2Proof.Config
end

