-- ==== Sys2Proof/Machine/Frames.lean ====
section
/-! DEFINITION. The frame of both links, its CRC, its receiver, and big-endian numbers (chapter 7). -/

namespace Sys2Proof.Machine

open Config

/-- A number as `n` characters, high byte first (07 R129). -/
def beBytes : Nat → Nat → List Byte
  | 0, _ => []
  | n + 1, v => BitVec.ofNat 8 (v / 256 ^ n) :: beBytes n v

/-- The number that characters spell, high byte first (07 R129). -/
def beNat (bs : List Byte) : Nat := bs.foldl (fun acc b => acc * 256 + b.toNat) 0

/-- A signed number as two characters, two's complement (07 Table 7-9). -/
def beInt16 (v : Int) : List Byte := beBytes 2 (BitVec.ofInt 16 v).toNat

/-- The signed number that two characters spell (07 Table 7-9). -/
def intOf16 (bs : List Byte) : Int := (BitVec.ofNat 16 (beNat bs)).toInt

/-- The characters of the field at offset `off`, `len` wide. -/
def fieldAt (bs : List Byte) (off len : Nat) : List Byte := (bs.drop off).take len

/-- The unsigned number in the field at offset `off`, `len` wide. -/
def natAt (bs : List Byte) (off len : Nat) : Nat := beNat (fieldAt bs off len)

/-- One bit of the CRC register: generator x^16 + x^12 + x^5 + 1 (07 R130). -/
def crcShift (r : BitVec 16) : BitVec 16 :=
  if r.msb then (r <<< 1) ^^^ 0x1021#16 else r <<< 1

/-- One character into the CRC register, most significant bit first (07 R130). -/
def crcByte (r : BitVec 16) (b : Byte) : BitVec 16 :=
  crcShift (crcShift (crcShift (crcShift (crcShift (crcShift (crcShift (crcShift
    (r ^^^ (b.zeroExtend 16 <<< 8)))))))))

/-- The CRC over characters: the register starts at 0xFFFF, no final inversion (07 R130). -/
def crc (bs : List Byte) : BitVec 16 := bs.foldl crcByte 0xFFFF#16

/-- The start mark (07 Table 7-1). -/
def startMark : Byte := 0xC3#8

/-- The longest body (07 R129). -/
def maxBody : Nat := 48

/-- A frame: two stations, a kind and a body (07 Table 7-1). -/
structure Frame where
  dest : Station
  src : Station
  kind : Byte
  body : List Byte
deriving DecidableEq, Repr

/-- The characters the CRC covers: address, kind, length, body (07 R130). -/
def Frame.covered (f : Frame) : List Byte :=
  (f.dest ++ f.src : BitVec 8) :: f.kind :: BitVec.ofNat 8 f.body.length :: f.body

/-- The frame as it goes out on a line (07 Table 7-1). -/
def Frame.chars (f : Frame) : List Byte :=
  startMark :: (f.covered ++ beBytes 2 (crc f.covered).toNat)

/-- The station of a column (00_scope Table 0-5). -/
def stationOf (c : Col) : Station := BitVec.ofNat 4 (c.val + 1)

/-- The order server (00_scope Table 0-5). -/
def serverStation : Station := 13#4

/-- All columns (00_scope Table 0-5). -/
def broadcastStation : Station := 15#4

/-- The column a station address names, if it names one. -/
def columnOf (a : Station) : Option Col :=
  if h : 1 ≤ a.toNat ∧ a.toNat ≤ 8 then some ⟨a.toNat - 1, by omega⟩ else none

/-- A receiver hunts for a start mark or assembles a frame (07 section 7.2). -/
inductive Receiver where
  | hunting
  /-- The characters taken so far, from the start mark on, and the stop bit of the last. -/
  | assembling (chars : List Byte) (last : Time)
deriving DecidableEq, Repr

/-- What a receiver finds (07 R132, R133). -/
inductive RxEvent where
  /-- A frame is complete; its characters from the start mark on. -/
  | complete (chars : List Byte)
  /-- The frame being assembled is discarded: a bad length or a character error. -/
  | discarded
deriving DecidableEq, Repr

/-- The time a character takes on a port's line: ten bits at 230,400 or 115,200 bit/s (07 R129, log 4). -/
def charTime (port : Port) : Time :=
  match port with
  | .server => serverCharTime
  | .column => columnCharTime

/-- The character gap limit of a port (07 R132). -/
def gapLimit (port : Port) : Time :=
  match port with
  | .server => serverGapLimit
  | .column => columnGapLimit

/-- The stop bit of a character on a port's line. -/
def stopBit (port : Port) (ch : LineChar) : Time := ch.start + charTime port

/-- The moment at which the gap limit of the frame being assembled runs out (07 R132). -/
def Receiver.gapEnd (port : Port) (r : Receiver) : Option Time :=
  match r with
  | .hunting => none
  | .assembling _ last => some (last + gapLimit port)

/-- The gap limit has run out before a character that begins at `t` (07 R132). -/
def Receiver.lapsed (port : Port) (r : Receiver) (t : Time) : Bool := (r.gapEnd port).any fun e => decide (e < t)

/-- A receiver takes one character; its gap limit has not run out (07 R132, R133). -/
def Receiver.take (port : Port) (r : Receiver) (ch : LineChar) : Receiver × Option RxEvent :=
  match r, ch.byte with
  | .hunting, none => (.hunting, none)
  | .assembling _ _, none => (.hunting, some .discarded)
  | .hunting, some b => if b = startMark then (.assembling [b] (stopBit port ch), none) else (.hunting, none)
  | .assembling cs _, some b =>
    let all := cs ++ [b]
    if all.length < 4 then (.assembling all (stopBit port ch), none)
    else if maxBody < natAt all 3 1 then (.hunting, some .discarded)
    else if all.length = natAt all 3 1 + 6 then (.hunting, some (.complete all))
    else (.assembling all (stopBit port ch), none)

/-- A receiver hears a run of characters with the gaps between them: where it ends, and what it found, in
order (07 R132, R133). -/
def Receiver.hear (port : Port) (r : Receiver) : List LineChar → Receiver × List RxEvent
  | [] => (r, [])
  | ch :: chs =>
    let gap := r.lapsed port ch.start
    let (r1, found) := (if gap then Receiver.hunting else r).take port ch
    let (r2, later) := r1.hear port chs
    (r2, (if gap then [.discarded] else []) ++ found.toList ++ later)

/-- Whether a frame is being assembled. -/
def Receiver.busy : Receiver → Bool
  | .hunting => false
  | .assembling _ _ => true

/-- The CRC of a complete frame is good (07 R130). -/
def crcGood (chars : List Byte) : Bool :=
  let n := natAt chars 3 1
  (crc (fieldAt chars 1 (n + 3))).toNat == natAt chars (n + 4) 2

/-- The fields of a complete frame (07 Table 7-1). -/
def frameOf (chars : List Byte) : Frame :=
  let address := natAt chars 1 1
  { dest := BitVec.ofNat 4 (address / 16)
    src := BitVec.ofNat 4 address
    kind := BitVec.ofNat 8 (natAt chars 2 1)
    body := fieldAt chars 4 (natAt chars 3 1) }

end Sys2Proof.Machine
end

