-- ==== Sys2Proof/Machine/State.lean ====
section
/-! DEFINITION. Everything the manual gives the LB-64 to hold, and the part right after reset. -/

namespace Sys2Proof.Machine

open Config

/-- Why the machine stops: the manual names no command that stops it, so there is no reason. -/
inductive Fault where
deriving DecidableEq, Repr

/-- Why a command has no meaning. No meaning refuses. -/
inductive Refusal where
  /-- Raised by an arm of exec that has no meaning yet (safe: the model stops where the part goes on). -/
  | notModelled (mnemonic : String)
deriving DecidableEq, Repr

/-! ## Reservations (chapter 1) -/

/-- Expiry and discard reasons (01 Table 1-5). -/
inductive Reason where
  | notLoaded | window | hold | cold | latch | fault | tamper | missing | dropped
deriving DecidableEq, Repr

/-- How far the meal of a reservation has come, with the fields each state has (01 Tables 1-1, 1-2). -/
inductive Stage where
  | booked
  | loading (locker : LockerId)
  | ready (locker : LockerId) (loadedAt : Nat)
  | releasing (locker : LockerId) (loadedAt : Nat) (expiry : Option Reason)
  | opened (locker : LockerId) (loadedAt : Nat) (expiry : Option Reason)
deriving DecidableEq, Repr

/-- A reservation entry outside FREE (01 Table 1-1); a FREE slot holds none. -/
structure Reservation where
  tag : Nat
  /-- The six digits as a number below 1,000,000. -/
  code : Nat
  cls : ClassId
  opens : Nat
  closes : Nat
  train : Option Nat
  holdOverride : Option Nat
  stage : Stage
deriving DecidableEq, Repr

/-- The TRAIN-SHIFT walk in flight (01 R22, R23). -/
structure ShiftWalk where
  train : Nat
  delta : Int
  cursor : Slot
  shifted : Nat
  skipped : Nat
  next : Time
deriving DecidableEq, Repr

/-! ## Lockers (chapters 2, 5, 6) -/

/-- Locker faults (02 Table 2-4). -/
inductive LockerFault where
  | latch | sensor | overheat | tamper | purgeFail | purgeStall
deriving DecidableEq, Repr

/-- The two doors of a locker (02 section 2.2). -/
inductive Side where
  | front | back
deriving DecidableEq, Repr

/-- How far the unlatch of the side in use has come (02 R36). -/
inductive Phase where
  | awaitLatch | unlatched
deriving DecidableEq, Repr

/-- The presence sensor's last report (02 R33). -/
inductive Occupied where
  | no | yes | unknown
deriving DecidableEq, Repr

/-- The timing of the door in use (02 R42, R49). -/
structure Door where
  /-- Door open since. -/
  since : Option Time
  /-- The DOOR-HELD notice of this stay has been given (log 11). -/
  reported : Bool
  /-- Bounce mask until. -/
  mask : Option Time
deriving DecidableEq, Repr

/-- No timing yet. -/
def Door.none : Door := ⟨Option.none, false, Option.none⟩

/-- A held meal's hold deadline and cold seconds (02 R35). -/
structure Meal where
  deadline : Nat
  cold : Nat
deriving DecidableEq, Repr

/-- The tag and discard reason of a meal left inside (02 R34). -/
structure Stored where
  tag : Nat
  reason : Reason
deriving DecidableEq, Repr

/-- The twelve states of a locker, each with the fields it has (02 Tables 2-1, 2-2). RELEASING is in
phase AWAIT-LATCH, OPEN stands for the front side unlatched (R36). A court time of `none` is UNSET. -/
inductive LockerState where
  | absent
  | purgeWait
  | purging (started : Option Nat)
  | purgeRest (until_ : Option Nat)
  | empty
  | loading (slot : Slot) (phase : Phase) (door : Door)
  | holding (slot : Slot) (meal : Meal)
  | releasing (slot : Slot) (meal : Meal)
  | opened (slot : Slot) (meal : Meal) (door : Door)
  | spoiled (stored : Option Stored)
  | clearing (stored : Option Stored) (phase : Phase) (door : Door)
  | blocked (fault : LockerFault) (stored : Option Stored)
deriving DecidableEq, Repr

/-- A locker record (02 Table 2-1). -/
structure Locker where
  state : LockerState
  rating : Nat
  occupied : Occupied
  /-- Last temperature, in tenths of a degree. -/
  lastTemp : Option Int
  demand : Nat
  refusals : Nat
deriving DecidableEq, Repr

/-- A locker record after power-on (02 R52). -/
def Locker.reset : Locker := ⟨.absent, 0, .unknown, none, 0, 0⟩

/-! ## Classes and columns (chapters 5, 10) -/

/-- An enabled class record (05 Table 5-1); a class that is not enabled holds none. -/
structure FoodClass where
  rating : Nat
  target : Int
  minimum : Int
  holdLimit : Nat
  coldAllowance : Nat
  units : Nat
deriving DecidableEq, Repr

/-- Column states (10 Table 10-2); settle until stands in SETTLING, `none` being UNSET. -/
inductive ColState where
  | unseen | absent
  | settling (until_ : Option Nat)
  | active | service | lost
deriving DecidableEq, Repr

/-- A column record (10 Table 10-1), with the walk it is owed (R187) and its quiet until (08 R148). -/
structure Column where
  state : ColState
  silence : Nat
  walkPending : Bool
  attention : Bool
  walkOwed : Bool
  budget : Nat
  pendingBudget : Option Nat
  pointer : Pos
  granted : Bank Nat 8
  /-- The next expiry of the heat timer; `none` while it is stopped (05 R101). -/
  heatNext : Option Time
  wrong : Nat
  lockout : Option Nat
  quiet : Option Time
deriving DecidableEq, Repr

/-- A column record after power-on (10 R178, 05 R99, 03 R54, 08 R160). -/
def Column.reset : Column :=
  { state := .unseen, silence := 0, walkPending := true, attention := false, walkOwed := false
    budget := 8, pendingBudget := none, pointer := 0, granted := .fill 8 0
    heatNext := some heatPeriod, wrong := 0, lockout := none, quiet := none }

/-! ## The Operation Queue and the column port (chapters 8, 9) -/

/-- Where an operation goes: one column, or station 15 (09 Table 9-1). -/
inductive Dest where
  | column (c : Col)
  | all
deriving DecidableEq, Repr

/-- The station of a destination (00_scope Table 0-5). -/
def Dest.station : Dest → Station
  | .column c => stationOf c
  | .all => broadcastStation

/-- For whom an operation was queued (09 Table 9-1). -/
inductive Origin where
  | collect | load | clear | heat | purge | poll | fetch | roll | panel | pass
deriving DecidableEq, Repr

/-- Scheduling classes (09 R173). -/
inductive OpClass where
  | urgent | routine
deriving DecidableEq, Repr

/-- Why a walk was called for (10 R187, R190). -/
inductive WalkCause where
  | initial | rollCall | returning
deriving DecidableEq, Repr

/-- The column list and cursor of a walk: the list is `done ++ here :: ahead`, the cursor stands at
`here` and `pos` (08 R158). -/
structure Walk where
  done : List Col
  here : Col
  ahead : List Col
  pos : Pos
  cause : WalkCause
deriving DecidableEq, Repr

/-- Repetition modes, with the fields each keeps (09 Table 9-1, 08 section 8.3). -/
inductive Mode where
  | once
  | untilMet (limit made : Nat)
  | untilEmpty (returned : Nat)
  | counted (done : Nat)
  | walk (w : Walk)
deriving DecidableEq, Repr

/-- The pass-through request an operation answers (11 R202). -/
structure InboxRef where
  kind : Byte
  dest : Station
deriving DecidableEq, Repr

/-- An operation record (09 Table 9-1). -/
structure Op where
  tag : Nat
  dest : Dest
  kind : Byte
  position : Option Pos
  side : Option Side
  mode : Mode
  cls : OpClass
  origin : Origin
  slot : Option Slot
  inboxRef : Option InboxRef
  body : List Byte
  notBefore : Time
  inFlight : Bool
deriving DecidableEq, Repr

/-- Where an exchange stands (08 R149 to R153). -/
inductive ExStage where
  /-- The reply is awaited and the reply window has not closed. -/
  | awaiting
  /-- The window has closed while a frame was being assembled. -/
  | closing
  /-- The try ended without a reply at the time given; a retry is due. -/
  | retryFrom (t : Time)
  /-- A broadcast is being sent. -/
  | broadcast
  /-- A POLL's slots run. -/
  | slots
deriving DecidableEq, Repr

/-- The exchange in flight (08 R148). -/
structure Exchange where
  tag : Nat
  dest : Dest
  kind : Byte
  /-- The request's characters, held unchanged for every try. -/
  request : List Byte
  tryNo : Nat
  /-- The end of the request's last transmission. -/
  requestEnd : Time
  stage : ExStage
  /-- The column has left reach since the exchange began (08 R159). -/
  leftReach : Bool
  /-- A RESTART has abandoned the exchange (08 R160). -/
  abandoned : Bool
deriving DecidableEq, Repr

/-! ## The server port (chapter 11) -/

/-- A frame in the Server Inbox (11 R196). -/
structure InboxFrame where
  dest : Station
  kind : Byte
  body : List Byte
deriving DecidableEq, Repr

/-- A reply to the server (11 R198); `restart` marks the reply whose end brings the RESTART (R207). -/
structure Reply where
  kind : Byte
  src : Station
  body : List Byte
  restart : Bool
deriving DecidableEq, Repr

/-- Operating modes (11 R204). -/
inductive OpMode where
  | starting | run | drain
deriving DecidableEq, Repr

/-- Notices with their fields (11 Table 11-3); a column state is carried whole. -/
inductive Notice where
  | loaded (tag : Nat) (l : LockerId) (close : Nat)
  | released (tag : Nat) (l : LockerId)
  | collected (tag : Nat) (l : LockerId) (late : Bool)
  | returned (tag : Nat) (l : LockerId)
  | notOpened (tag : Nat) (l : LockerId)
  | expired (tag : Nat) (reason : Reason) (l : Option LockerId)
  | discarded (stored : Option Stored) (l : LockerId)
  | lockerFault (l : LockerId) (fault : LockerFault)
  | columnState (c : Col) (state : ColState)
  | lockout (c : Col) (seconds : Nat)
  | doorHeld (l : LockerId) (side : Side)
  | loadRefused (tag : Nat) (scanned : Col) (redirect : Option Col)
  | shiftDone (train shifted skipped : Nat)
  | inventoryDone (columns lockers : Nat)
  | mode (m : OpMode)
  | columnEvent (c : Col) (raw : List Byte)
  | gap (count : Nat)
deriving DecidableEq, Repr

/-- The frame in the transmitter (11 R198). -/
structure Sending where
  chars : List Byte
  restart : Bool
deriving DecidableEq, Repr

/-- Filter actions (11 R200). -/
inductive FilterAction where
  | refuse | pass | passInService
deriving DecidableEq, Repr

/-- A Filter Table entry (11 R200). -/
structure FilterEntry where
  action : FilterAction
  multi : Bool
deriving DecidableEq, Repr

/-- The eight statistics counters, in order (11 Table 11-7). -/
structure Counters where
  serverDiscarded : Nat
  columnDiscarded : Nat
  silent : Nat
  matched : Nat
  wrong : Nat
  releasesFailed : Nat
  expired : Nat
  noticesLost : Nat
deriving DecidableEq, Repr

/-- Every counter at 0 (11 R206). -/
def Counters.zero : Counters := ⟨0, 0, 0, 0, 0, 0, 0, 0⟩

/-! ## The whole part -/

end Sys2Proof.Machine

open Sys2Proof.Config

namespace Sys2Proof.Machine

/-- The state of the LB-64 and the queue of commands that wait for it. -/
structure State where
  /-- Commands waiting, first in first out (the block's interface). -/
  pending : List Instr
  /-- RESET_N is low or the supply is lost (00_scope Table 0-6). -/
  held : Bool
  /-- Internal time (00_scope 5.2). -/
  now : Time
  /-- Reservation Table (01 R1); `none` is a FREE entry. -/
  entries : Bank (Option Reservation) 256
  /-- Court time, `none` being UNSET (01 R8). -/
  court : Option Nat
  /-- When court time next advances, while it is set (01 R8). -/
  courtNext : Time
  /-- TRAIN-SHIFT walk in flight (01 R22). -/
  shift : Option ShiftWalk
  /-- Locker Table (02 R28). -/
  lockers : Bank Locker 64
  /-- Class Table (05 R97); `none` is a class that is not enabled. -/
  classes : Bank (Option FoodClass) 4
  /-- Column Table (10 R178). -/
  columns : Bank Column 8
  /-- Operation Queue in arrival order (09 R168). -/
  ops : List Op
  /-- Entries held for a fetched event (09 R169). -/
  reserve : Nat
  /-- Streak count (09 R173). -/
  streak : Nat
  /-- Exchange in flight (08 R148). -/
  exchange : Option Exchange
  /-- When the column line was last released; `none` is "since the start" (08 R148, R160). -/
  released : Option Time
  /-- Receiver of the column line (07 R132). -/
  columnRx : Receiver
  /-- Next expiry of the poll timer (10 R180). -/
  pollNext : Time
  /-- Receiver of the server port (07 R132). -/
  serverRx : Receiver
  /-- Server Inbox (11 R196). -/
  inbox : List InboxFrame
  /-- Reply queue (11 R198). -/
  replies : List Reply
  /-- Notice queue (11 R198). -/
  notices : List Notice
  /-- Transmitter (11 R198); `none` is idle. -/
  sending : Option Sending
  /-- Gap count (11 R199). -/
  gap : Nat
  /-- A RESTART is pending (11 R207). -/
  restartPending : Bool
  /-- Filter Table (11 R200): entry 0 is kind 0x09, entry k is kind 0x0F + k. -/
  filter : Bank FilterEntry 49
  /-- Operating mode (11 R204). -/
  mode : OpMode
  /-- Initial walk ended (11 R204). -/
  walkEnded : Bool
  /-- Court time set (11 R204). -/
  clockMark : Bool
  /-- LINK_LED is driven low (11 R204). -/
  ledLow : Bool
  /-- Statistics counters (11 R206). -/
  counters : Counters
  /-- The MODEL's own: how many free choices have been taken (log 7). -/
  choices : Nat
deriving DecidableEq, Repr

/-- The Class Table after power-on (05 Table 5-2). -/
def classTable : Bank (Option FoodClass) 4 :=
  ⟨[some ⟨1, 720, 630, 5400, 600, 2⟩, some ⟨2, 800, 700, 3600, 300, 3⟩,
    some ⟨1, 650, 600, 7200, 900, 1⟩, none], rfl⟩

/-- The Filter Table after power-on (11 R200). -/
def filterTable : Bank FilterEntry 49 :=
  (Bank.fill 49 ⟨.refuse, false⟩).set 0 ⟨.passInService, false⟩

/-- The full-wall walk that CS queues at the start and at RESTART, in entry 1 (09 R177, 10 R187). -/
def initialWalk (now : Time) : Op :=
  { tag := 1, dest := .column 0, kind := 0x03#8, position := some 0, side := none
    mode := .walk ⟨[], 0, [1, 2, 3, 4, 5, 6, 7], 0, .initial⟩
    cls := .routine, origin := .roll, slot := none, inboxRef := none, body := []
    notBefore := now, inFlight := false }

/-- The part right after power-on or release of RESET_N (01 R26, 02 R52, 03 R54, 05 R97, R99, 07 R132,
08 R160, 09 R177, 10 R178, 11 R196 to R206). -/
def State.reset : State :=
  { pending := [], held := false, now := 0
    entries := .fill 256 none, court := none, courtNext := 0, shift := none
    lockers := .fill 64 .reset, classes := classTable, columns := .fill 8 .reset
    ops := [initialWalk 0], reserve := 0, streak := 0
    exchange := none, released := none, columnRx := .hunting
    pollNext := pollPeriod, serverRx := .hunting
    inbox := [], replies := [], notices := [], sending := none, gap := 0
    restartPending := false, filter := filterTable, mode := .starting
    walkEnded := false, clockMark := false, ledLow := false
    counters := .zero, choices := 0 }

end Sys2Proof.Machine
end

