-- ==== Sys2Proof/Machine/Flags.lean ====
section
/-! DEFINITION. Flag bytes, slot answers, saturating counts, and the codes of named values
(chapter 7, Tables 7-3, 7-5, 7-9, 7-10, 7-12). -/

namespace Sys2Proof.Machine

open Config

/-- One more, at most `limit` (a saturating count). -/
def satInc (limit n : Nat) : Nat := min limit (n + 1)

/-- A court time plus a number of seconds, held at the highest court time (01 R8). -/
def satAdd (t n : Nat) : Nat := min maxCourt (t + n)

/-- A court time moved by a signed number of seconds, held at 0 and at the highest (01 R23). -/
def shiftTime (t : Nat) (delta : Int) : Nat := min maxCourt ((t : Int) + delta).toNat

/-- The reply flags byte (07 Table 7-3). -/
structure Flags where
  taken : Bool
  met : Bool
  more : Bool
deriving DecidableEq, Repr

/-- The flags in a byte; bits 3 to 7 are disregarded (07 R136). -/
def flagsOf (b : Byte) : Flags := ⟨b.getLsbD 0, b.getLsbD 1, b.getLsbD 2⟩

/-- The flags of a reply body: its first byte, if it has one (07 R136). -/
def bodyFlags : List Byte → Option Flags
  | [] => none
  | b :: _ => some (flagsOf b)

/-- A forwarded body: the column's, with bits 3 to 7 of the flags byte written as 0 (07 R145). -/
def forwardBody : List Byte → List Byte
  | [] => []
  | b :: rest => (b &&& 0x07#8) :: rest

/-- The reply mark, the high bit of a kind (07 R131). -/
def replyKind (kind : Byte) : Byte := kind ||| 0x80#8

/-- The number of set bits of a byte. -/
def setBits (b : Byte) : Nat :=
  (List.range 8).foldl (fun n i => if b.getLsbD i then n + 1 else n) 0

/-- ATTN and SVC of a poll slot answer (07 Table 7-5). -/
structure SlotAnswer where
  attn : Bool
  svc : Bool
deriving DecidableEq, Repr

/-- The answer a character brings, if it is valid: no character error, bits 2 to 6 clear, odd parity
(07 R138). -/
def charAnswer (ch : LineChar) : Option SlotAnswer :=
  match ch.byte with
  | none => none
  | some b =>
    if b &&& 0x7C#8 = 0#8 ∧ setBits b % 2 = 1 then some ⟨b.getLsbD 0, b.getLsbD 1⟩ else none

/-- The characters that begin in the slot of column `c` after a POLL frame that ended at `t` (08 R153): the moment at
which the slot opens is in it, the one at which it closes is not: DESIGN CHOICE (log 40). -/
def slotChars (t : Time) (c : Col) (chars : List LineChar) : List LineChar :=
  let opens := t + slotsOpen + c.val * slotLength
  chars.filter fun ch => decide (opens ≤ ch.start) && decide (ch.start < opens + slotLength)

/-- The answer of a slot: the one character that begins in it, if it is valid (07 R138). -/
def slotAnswer (heard : List LineChar) : Option SlotAnswer :=
  match heard with
  | [ch] => charAnswer ch
  | _ => none

/-- Reply statuses (07 Table 7-12). -/
inductive Status where
  | ok | accepted | busy | full | duplicate | notFound | inUse | badField
  | clipped | skew | notNow | unknownKind | refused | unreachable | noReply | failed
deriving DecidableEq, Repr

/-- The code of a status (07 Table 7-12). -/
def Status.code : Status → Byte
  | .ok => 0x40#8
  | .accepted => 0x41#8
  | .busy => 0x42#8
  | .full => 0x43#8
  | .duplicate => 0x44#8
  | .notFound => 0x45#8
  | .inUse => 0x46#8
  | .badField => 0x47#8
  | .clipped => 0x48#8
  | .skew => 0x49#8
  | .notNow => 0x4A#8
  | .unknownKind => 0x4B#8
  | .refused => 0x4C#8
  | .unreachable => 0x4D#8
  | .noReply => 0x4E#8
  | .failed => 0x4F#8

/-- Codes of reasons (07 Table 7-10). -/
def Reason.code : Reason → Nat
  | .notLoaded => 1
  | .window => 2
  | .hold => 3
  | .cold => 4
  | .latch => 5
  | .fault => 6
  | .tamper => 7
  | .missing => 8
  | .dropped => 9

/-- Codes of locker faults (07 Table 7-10). -/
def LockerFault.code : LockerFault → Nat
  | .latch => 1
  | .sensor => 2
  | .overheat => 3
  | .tamper => 4
  | .purgeFail => 5
  | .purgeStall => 6

/-- Codes of locker states (07 Table 7-10, in the order of 02 Table 2-2). -/
def LockerState.code : LockerState → Nat
  | .absent => 0
  | .purgeWait => 1
  | .purging _ => 2
  | .purgeRest _ => 3
  | .empty => 4
  | .loading _ _ _ => 5
  | .holding _ _ => 6
  | .releasing _ _ => 7
  | .opened _ _ _ => 8
  | .spoiled _ => 9
  | .clearing _ _ _ => 10
  | .blocked _ _ => 11

/-- Codes of column states (07 Table 7-10). -/
def ColState.code : ColState → Nat
  | .unseen => 0
  | .absent => 1
  | .settling _ => 2
  | .active => 3
  | .service => 4
  | .lost => 5

/-- Codes of entry states outside FREE (07 Table 7-10). -/
def Stage.code : Stage → Nat
  | .booked => 1
  | .loading _ => 2
  | .ready _ _ => 3
  | .releasing _ _ _ => 4
  | .opened _ _ _ => 5

/-- Codes of phases (07 Table 7-10). -/
def Phase.code : Phase → Nat
  | .awaitLatch => 1
  | .unlatched => 2

/-- Codes of occupied (07 Table 7-10). -/
def Occupied.code : Occupied → Nat
  | .no => 0
  | .yes => 1
  | .unknown => 2

/-- Codes of sides (07 R137). -/
def Side.code : Side → Nat
  | .front => 0
  | .back => 1

/-- Codes of operating modes (07 Table 7-10). -/
def OpMode.code : OpMode → Nat
  | .starting => 0
  | .run => 1
  | .drain => 2

/-- Codes of filter actions (07 Table 7-10). -/
def FilterAction.code : FilterAction → Nat
  | .refuse => 0
  | .pass => 1
  | .passInService => 2

/-- A mark byte (07 Table 7-9). -/
def markByte (b : Bool) : Byte := if b then 1#8 else 0#8

/-- A number as one byte (07 Table 7-9). -/
def u8 (n : Nat) : List Byte := beBytes 1 n

/-- A locker number, 0 when absent (07 Table 7-9). -/
def lockerByte : Option LockerId → List Byte
  | none => u8 0
  | some l => u8 (l.val + 1)

/-- A column number, 0 when absent (07 Table 7-9). -/
def columnByte : Option Col → List Byte
  | none => u8 0
  | some c => u8 (c.val + 1)

/-- Panel messages with their arguments (03 Table 3-1, 04 Table 4-1). -/
inductive Message where
  | open_ (l : LockerId)
  | wrongCode (left : Nat)
  | locked (seconds : Nat)
  | notReady
  | tooEarly (minutes : Nat)
  | goTo (c : Col)
  | inProgress
  | notInService
  | seeCounter
  | load (l : LockerId)
  | unknownTicket
  | alreadyLoaded (l : LockerId)
  | noLocker
  | bankClosing
  | latchFault (l : LockerId)
  | clear (l : LockerId)
  | clearRefused
deriving DecidableEq, Repr

/-- The message code and its argument; a message with none carries 0 (07 R137, 03 R55). LOCKED with more
seconds than two bytes hold carries a free value (log 30). -/
def Message.code : Message → Nat × Nat
  | .open_ l => (1, l.val + 1)
  | .wrongCode n => (2, n)
  | .locked n => (3, if n < 65536 then n else (lockedArgument n).toNat)
  | .notReady => (4, 0)
  | .tooEarly n => (5, n)
  | .goTo c => (6, c.val + 1)
  | .inProgress => (7, 0)
  | .notInService => (8, 0)
  | .seeCounter => (9, 0)
  | .load l => (10, l.val + 1)
  | .unknownTicket => (11, 0)
  | .alreadyLoaded l => (12, l.val + 1)
  | .noLocker => (13, 0)
  | .bankClosing => (14, 0)
  | .latchFault l => (15, l.val + 1)
  | .clear l => (16, l.val + 1)
  | .clearRefused => (17, 0)

end Sys2Proof.Machine
end

