-- ==== Sys2Proof/Machine/Operands.lean ====
section
/-! DEFINITION. The operand forms: fields of request bodies, column events, readings, descriptors
(chapter 7). -/

namespace Sys2Proof.Machine

open Config

/-- The locker of a column and position (00_scope 5.1). -/
def lockerAt (c : Col) (p : Pos) : LockerId := ⟨c.val * 8 + p.val, by omega⟩

/-- The column of a locker. -/
def lockerCol (l : LockerId) : Col := ⟨l.val / 8, by omega⟩

/-- The position of a locker. -/
def lockerPos (l : LockerId) : Pos := ⟨l.val % 8, by omega⟩

/-- The eight positions, lowest first. -/
def allPos : List Pos := List.finRange 8

/-- The eight columns, in order. -/
def allCols : List Col := List.finRange 8

/-- The locker a number 1 to 64 names. -/
def lockerNumber (n : Nat) : Option LockerId :=
  if h : 1 ≤ n ∧ n ≤ 64 then some ⟨n - 1, by omega⟩ else none

/-- The column a number 1 to 8 names. -/
def columnNumber (n : Nat) : Option Col :=
  if h : 1 ≤ n ∧ n ≤ 8 then some ⟨n - 1, by omega⟩ else none

/-- The position a number 1 to 8 names. -/
def positionNumber (n : Nat) : Option Pos :=
  if h : 1 ≤ n ∧ n ≤ 8 then some ⟨n - 1, by omega⟩ else none

/-- The class a number 0 to 3 names. -/
def classNumber (n : Nat) : Option ClassId :=
  if h : n < 4 then some ⟨n, h⟩ else none

/-- An optional field, absent when 0 (07 R143). -/
def optional (n : Nat) : Option Nat := if n = 0 then none else some n

/-- A mark, if the byte is 0 or 1 (07 R143). -/
def markOf (n : Nat) : Option Bool :=
  if n = 0 then some false else if n = 1 then some true else none

/-- One digit into a code read so far (07 R139, R144). -/
def digitInto (acc : Option Nat) (d : Nat) : Option Nat :=
  match acc with
  | some n => if d ≤ 9 then some (n * 10 + d) else none
  | none => none

/-- The six digits of three bytes, two per byte, high half first; none when a half lies outside 0 to 9
(07 R139, R144). -/
def codeOf (bs : List Byte) : Option Nat :=
  bs.foldl (fun acc b => digitInto (digitInto acc (b.toNat / 16)) (b.toNat % 16)) (some 0)

/-- A code as three bytes (07 Table 7-9). -/
def codeBytes (n : Nat) : List Byte :=
  let pair (v : Nat) : Byte := BitVec.ofNat 8 (v / 10 % 10 * 16 + v % 10)
  [pair (n / 10000), pair (n / 100), pair n]

/-! ## Management requests (07 R143, R144) -/

/-- RES-PUT (07 Table 7-11); a code that is not six digits is none. -/
structure ResPutReq where
  tag : Nat
  code : Option Nat
  cls : Nat
  opens : Nat
  closes : Nat
  train : Option Nat
  holdOverride : Option Nat
deriving DecidableEq, Repr

/-- The fields of a RES-PUT body, if its length is 20. -/
def resPutReq (b : List Byte) : Option ResPutReq :=
  if b.length = 20 then
    some ⟨natAt b 0 4, codeOf (fieldAt b 4 3), natAt b 7 1, natAt b 8 4, natAt b 12 4,
      optional (natAt b 16 2), optional (natAt b 18 2)⟩
  else none

/-- RES-SHIFT(tag, new close, new open?). -/
structure ResShiftReq where
  tag : Nat
  closes : Nat
  opens : Option Nat
deriving DecidableEq, Repr

/-- The fields of a RES-SHIFT body, if its length is 12. -/
def resShiftReq (b : List Byte) : Option ResShiftReq :=
  if b.length = 12 then some ⟨natAt b 0 4, natAt b 4 4, optional (natAt b 8 4)⟩ else none

/-- TRAIN-SHIFT(train, delta). -/
structure TrainShiftReq where
  train : Nat
  delta : Int
deriving DecidableEq, Repr

/-- The fields of a TRAIN-SHIFT body, if its length is 4. -/
def trainShiftReq (b : List Byte) : Option TrainShiftReq :=
  if b.length = 4 then some ⟨natAt b 0 2, intOf16 (fieldAt b 2 2)⟩ else none

/-- RES-READ by slot or by tag. -/
inductive ResReadReq where
  | slot (i : Slot)
  | tag (t : Nat)
deriving DecidableEq, Repr

/-- The field of a RES-READ body, if its length is 1 or 4. -/
def resReadReq (b : List Byte) : Option ResReadReq :=
  if b.length = 1 then some (.slot (Fin.ofNat 256 (natAt b 0 1)))
  else if b.length = 4 then some (.tag (natAt b 0 4))
  else none

/-- The one number of a body that must be `n` bytes long. -/
def numberReq (n : Nat) (b : List Byte) : Option Nat :=
  if b.length = n then some (natAt b 0 n) else none

/-- CLASS-SET, its fields as numbers. -/
structure ClassSetReq where
  cls : Nat
  enabled : Nat
  values : FoodClass
deriving DecidableEq, Repr

/-- The fields of a CLASS-SET body, if its length is 12. -/
def classSetReq (b : List Byte) : Option ClassSetReq :=
  if b.length = 12 then
    some ⟨natAt b 0 1, natAt b 1 1,
      ⟨natAt b 2 1, intOf16 (fieldAt b 3 2), intOf16 (fieldAt b 5 2), natAt b 7 2, natAt b 9 2,
        natAt b 11 1⟩⟩
  else none

/-- The values of a class lie within 05 Table 5-1. -/
def FoodClass.inRange (k : FoodClass) : Bool :=
  decide (k.rating ≤ 3 ∧ 400 ≤ k.target ∧ k.target ≤ 1000 ∧ 200 ≤ k.minimum ∧ k.minimum < k.target
    ∧ 600 ≤ k.holdLimit ∧ k.holdLimit ≤ 14400 ∧ 10 ≤ k.coldAllowance ∧ k.coldAllowance ≤ 3600
    ∧ 1 ≤ k.units ∧ k.units ≤ 3)

/-- COLUMN-SET(column, budget). -/
def columnSetReq (b : List Byte) : Option (Nat × Nat) :=
  if b.length = 2 then some (natAt b 0 1, natAt b 1 1) else none

/-- FILTER-SET(kind, action, multi-block mark). -/
structure FilterSetReq where
  kind : Byte
  action : Nat
  multi : Nat
deriving DecidableEq, Repr

/-- The fields of a FILTER-SET body, if its length is 3. -/
def filterSetReq (b : List Byte) : Option FilterSetReq :=
  if b.length = 3 then some ⟨BitVec.ofNat 8 (natAt b 0 1), natAt b 1 1, natAt b 2 1⟩ else none

/-- The Filter Table entry of a kind: 0x09, or 0x10 to 0x3F (11 R200). -/
def filterIndex (kind : Byte) : Option (Fin 49) :=
  if kind = 0x09#8 then some 0
  else if h : 0x10 ≤ kind.toNat ∧ kind.toNat ≤ 0x3F then some ⟨kind.toNat - 0x0F, by omega⟩
  else none

/-- The filter action a code names (07 Table 7-10). -/
def filterActionOf (n : Nat) : Option FilterAction :=
  if n = 0 then some .refuse else if n = 1 then some .pass
  else if n = 2 then some .passInService else none

/-- The operating mode a code names (07 Table 7-10). -/
def opModeOf (n : Nat) : Option OpMode :=
  if n = 0 then some .starting else if n = 1 then some .run
  else if n = 2 then some .drain else none

/-- A kind that 11 Table 11-1 names: 0x40 to 0x50. -/
def isManagement (kind : Byte) : Bool := decide (0x40 ≤ kind.toNat ∧ kind.toNat ≤ 0x50)

/-! ## Column events and readings -/

/-- Column events (07 Table 7-6). A position is carried as sent: the receiving block judges it (R140). -/
inductive Event where
  /-- The code, none when a digit lies outside 0 to 9. -/
  | code (digits : Option Nat)
  | backScan (tag : Nat)
  | backClear (position : Nat)
  | doorOpened (position : Nat) (side : Side)
  | doorClosed (position : Nat) (side : Side) (occupied : Bool)
  | relatched (position : Nat) (side : Side)
  | purgeDone (position : Nat) (ok : Bool)
  | sensorFault (position : Nat)
  | foreign (raw : List Byte)
deriving DecidableEq, Repr

/-- The side a byte names (07 R137). -/
def sideOf (n : Nat) : Option Side :=
  if n = 0 then some .front else if n = 1 then some .back else none

/-- The event in the body after the flags, if it is well formed (07 R139, R140). -/
def eventOf (raw : List Byte) : Option Event :=
  let n := raw.length
  let code := natAt raw 0 1
  if n = 0 then none
  else if code = 0x01 then if 4 ≤ n then some (.code (codeOf (fieldAt raw 1 3))) else none
  else if code = 0x02 then if 5 ≤ n then some (.backScan (natAt raw 1 4)) else none
  else if code = 0x03 then if 2 ≤ n then some (.backClear (natAt raw 1 1)) else none
  else if code = 0x04 then
    if 3 ≤ n then (sideOf (natAt raw 2 1)).map (.doorOpened (natAt raw 1 1)) else none
  else if code = 0x05 then
    if 4 ≤ n then
      match sideOf (natAt raw 2 1), markOf (natAt raw 3 1) with
      | some side, some occ => some (.doorClosed (natAt raw 1 1) side occ)
      | _, _ => none
    else none
  else if code = 0x06 then
    if 3 ≤ n then (sideOf (natAt raw 2 1)).map (.relatched (natAt raw 1 1)) else none
  else if code = 0x07 then
    if 3 ≤ n then (markOf (natAt raw 2 1)).map (fun fail => .purgeDone (natAt raw 1 1) (!fail))
    else none
  else if code = 0x08 then if 2 ≤ n then some (.sensorFault (natAt raw 1 1)) else none
  else if 0x10 ≤ code ∧ code ≤ 0x3F then some (.foreign raw)
  else none

/-- The valid probe range, in tenths of a degree (00_scope 5.3). -/
def inProbeRange (t : Int) : Bool := decide (-200 ≤ t ∧ t ≤ 1300)

/-- The reading of a position in a HEAT-SET reply body, if it is good (05 R108, 07 R137). -/
def readingOf (body : List Byte) (p : Pos) : Option Int :=
  let t := intOf16 (fieldAt body (2 + 3 * p.val) 2)
  if natAt body (1 + 3 * p.val) 1 = 1 ∧ inProbeRange t then some t else none

/-- A locker descriptor (07 Table 7-7). -/
structure Descriptor where
  rating : Nat
  occupied : Bool
  frontOpen : Bool
  backOpen : Bool
  purgeRunning : Bool
  /-- The walk reading, if it is good (07 R142). -/
  temp : Option Int
deriving DecidableEq, Repr

/-- The descriptor of a ROLL reply body (07 R142). -/
def descriptorOf (body : List Byte) : Descriptor :=
  let b : Byte := BitVec.ofNat 8 (natAt body 1 1)
  let t := intOf16 (fieldAt body 2 2)
  { rating := b.toNat % 4
    occupied := b.getLsbD 2
    frontOpen := b.getLsbD 3
    backOpen := b.getLsbD 4
    purgeRunning := b.getLsbD 5
    temp := if b.getLsbD 6 ∧ inProbeRange t then some t else none }

/-- The shortest reply body of a kind (07 R136, Table 7-4). -/
def minReply (kind : Byte) (f : Flags) : Nat :=
  if !f.taken then 1
  else if kind = 0x02#8 then if f.met then 2 else 1
  else if kind = 0x03#8 then if f.met then 4 else 1
  else if kind = 0x05#8 then 25
  else 1

/-- The items of a counted list at the head of a body: a count of 1 to 8 and at least that many bytes
(08 R157, 11 Table 11-4). -/
def countedItems (body : List Byte) : Option (List Byte) :=
  match body with
  | [] => none
  | n :: rest =>
    if 1 ≤ n.toNat ∧ n.toNat ≤ 8 ∧ n.toNat ≤ rest.length then some (rest.take n.toNat) else none

end Sys2Proof.Machine
end

