-- ==== Sys2Proof/Machine/Ops.lean ====
section
/-! DEFINITION. The named operations over the tables, the queues and internal time that every block uses. -/

namespace Sys2Proof.Machine

open Config

/-! ## Internal time -/

/-- Internal time brought to `t`, if `t` still lies ahead (log 3). -/
def State.reach (s : State) (t : Time) : State := { s with now := max s.now t }

/-! ## Tables -/

/-- The entry of a slot; none when it is FREE (01 R1). -/
def State.entry (s : State) (i : Slot) : Option Reservation := s.entries.get i

/-- Writes the entry of a slot. -/
def State.setEntry (s : State) (i : Slot) (e : Option Reservation) : State :=
  { s with entries := s.entries.set i e }

/-- The record of a locker (02 R28). -/
def State.locker (s : State) (l : LockerId) : Locker := s.lockers.get l

/-- Writes the record of a locker. -/
def State.setLocker (s : State) (l : LockerId) (v : Locker) : State :=
  { s with lockers := s.lockers.set l v }

/-- The record of a column (10 R178). -/
def State.column (s : State) (c : Col) : Column := s.columns.get c

/-- Writes the record of a column. -/
def State.setColumn (s : State) (c : Col) (v : Column) : State :=
  { s with columns := s.columns.set c v }

/-- A column is reachable in SETTLING and ACTIVE (10 R179). -/
def ColState.reachable : ColState → Bool
  | .settling _ => true
  | .active => true
  | .unseen | .absent | .service | .lost => false

/-- The state is SETTLING. -/
def ColState.isSettling : ColState → Bool
  | .settling _ => true
  | .unseen | .absent | .active | .service | .lost => false

/-- Column `c` is SETTLING or ACTIVE. -/
def State.reachable (s : State) (c : Col) : Bool := (s.column c).state.reachable

/-- Column `c` is SETTLING or ACTIVE with no walk pending. -/
def State.workable (s : State) (c : Col) : Bool := s.reachable c && !(s.column c).walkPending

/-- The locker of a stage, if it is bound (01 R2). -/
def Stage.locker : Stage → Option LockerId
  | .booked => none
  | .loading l => some l
  | .ready l _ => some l
  | .releasing l _ _ => some l
  | .opened l _ _ => some l

/-- The reservation slot a locker state names (02 R32). -/
def LockerState.slot : LockerState → Option Slot
  | .loading i _ _ => some i
  | .holding i _ => some i
  | .releasing i _ => some i
  | .opened i _ _ => some i
  | .absent | .purgeWait | .purging _ | .purgeRest _ | .empty => none
  | .spoiled _ | .clearing _ _ _ | .blocked _ _ => none

/-- The held meal of HOLDING, RELEASING and OPEN (chapter 5). -/
def LockerState.meal : LockerState → Option (Slot × Meal)
  | .holding i m => some (i, m)
  | .releasing i m => some (i, m)
  | .opened i m _ => some (i, m)
  | .absent | .purgeWait | .purging _ | .purgeRest _ | .empty => none
  | .loading _ _ _ | .spoiled _ | .clearing _ _ _ | .blocked _ _ => none

/-- The state with its held meal replaced. -/
def LockerState.withMeal (st : LockerState) (m : Meal) : LockerState :=
  match st with
  | .holding i _ => .holding i m
  | .releasing i _ => .releasing i m
  | .opened i _ d => .opened i m d
  | other => other

/-- The stored tag and discard reason (02 R34). -/
def LockerState.stored : LockerState → Option Stored
  | .spoiled st => st
  | .clearing st _ _ => st
  | .blocked _ st => st
  | .absent | .purgeWait | .purging _ | .purgeRest _ | .empty => none
  | .loading _ _ _ | .holding _ _ | .releasing _ _ | .opened _ _ _ => none

/-- A locker record enters a state: heat demand and refusals become 0 on entering BLOCKED, SPOILED, EMPTY
or ABSENT (02 R35); ABSENT also removes last temperature and sets occupied UNKNOWN (R33, R35). -/
def Locker.enter (lk : Locker) (st : LockerState) : Locker :=
  match st with
  | .absent => { lk with state := .absent, occupied := .unknown, lastTemp := none, demand := 0, refusals := 0 }
  | .blocked f t => { lk with state := .blocked f t, demand := 0, refusals := 0 }
  | .spoiled t => { lk with state := .spoiled t, demand := 0, refusals := 0 }
  | .empty => { lk with state := .empty, demand := 0, refusals := 0 }
  | other => { lk with state := other }

/-- Locker `l` enters a state. -/
def State.enterLocker (s : State) (l : LockerId) (st : LockerState) : State :=
  s.setLocker l ((s.locker l).enter st)

/-- Occupied of locker `l` is written (02 R33). -/
def State.setOccupied (s : State) (l : LockerId) (o : Occupied) : State :=
  s.setLocker l { s.locker l with occupied := o }

/-- The class record of an entry; all zero when the class is not enabled (log 24). -/
def State.classOf (s : State) (r : Reservation) : FoodClass :=
  (s.classes.get r.cls).getD ⟨0, 0, 0, 0, 0, 0⟩

/-- The lowest slot whose entry outside FREE satisfies `p` (01 R5). -/
def State.lookup (s : State) (p : Reservation → Bool) : Option Slot :=
  s.entries.find fun e => e.any p

/-- The slot whose entry holds a tag (01 R5). -/
def State.findTag (s : State) (tag : Nat) : Option Slot := s.lookup fun r => r.tag == tag

/-- The slot whose entry holds a code (01 R5). -/
def State.findCode (s : State) (code : Nat) : Option Slot := s.lookup fun r => r.code == code

/-! ## Notices, replies and the transmitter (11 R196 to R199) -/

/-- Queues a notice, or counts its loss (11 R199). -/
def State.queueNotice (s : State) (n : Notice) : State :=
  if s.notices.length < noticeSize then { s with notices := s.notices ++ [n] }
  else
    { s with
      gap := satInc 65535 s.gap
      counters := { s.counters with noticesLost := satInc maxCourt s.counters.noticesLost } }

/-- Places a reply at the tail of the reply queue (11 R198). -/
def State.placeReply (s : State) (r : Reply) : State := { s with replies := s.replies ++ [r] }

/-- The kind of a notice (07 Table 7-8). -/
def Notice.kind : Notice → Byte
  | .loaded _ _ _ => 0x60#8
  | .released _ _ => 0x61#8
  | .collected _ _ _ => 0x62#8
  | .returned _ _ => 0x63#8
  | .notOpened _ _ => 0x64#8
  | .expired _ _ _ => 0x65#8
  | .discarded _ _ => 0x66#8
  | .lockerFault _ _ => 0x67#8
  | .columnState _ _ => 0x68#8
  | .lockout _ _ => 0x69#8
  | .doorHeld _ _ => 0x6A#8
  | .loadRefused _ _ _ => 0x6B#8
  | .shiftDone _ _ _ => 0x6C#8
  | .inventoryDone _ _ => 0x6D#8
  | .mode _ => 0x6E#8
  | .columnEvent _ _ => 0x6F#8
  | .gap _ => 0x70#8

/-- A small count of a body, saturating (07 Table 7-9). -/
def smallCount (n : Nat) : List Byte := beBytes 2 (min 65535 n)

/-- The body of a notice, its fields in the order of 11 Table 11-3 (07 R147). -/
def Notice.body : Notice → List Byte
  | .loaded tag l close => beBytes 4 tag ++ lockerByte (some l) ++ beBytes 4 close
  | .released tag l => beBytes 4 tag ++ lockerByte (some l)
  | .collected tag l late => beBytes 4 tag ++ lockerByte (some l) ++ [markByte late]
  | .returned tag l => beBytes 4 tag ++ lockerByte (some l)
  | .notOpened tag l => beBytes 4 tag ++ lockerByte (some l)
  | .expired tag reason l => beBytes 4 tag ++ u8 reason.code ++ lockerByte l
  | .discarded (some st) l => beBytes 4 st.tag ++ lockerByte (some l) ++ u8 st.reason.code
  | .discarded none l => beBytes 4 0 ++ lockerByte (some l) ++ u8 0
  | .lockerFault l fault => lockerByte (some l) ++ u8 fault.code
  | .columnState c state => columnByte (some c) ++ u8 state.code
  | .lockout c seconds => columnByte (some c) ++ beBytes 2 seconds
  | .doorHeld l side => lockerByte (some l) ++ u8 side.code
  | .loadRefused tag scanned redirect =>
    beBytes 4 tag ++ columnByte (some scanned) ++ columnByte redirect
  | .shiftDone train shifted skipped => beBytes 2 train ++ smallCount shifted ++ smallCount skipped
  | .inventoryDone columns lockers => smallCount columns ++ smallCount lockers
  | .mode m => u8 m.code
  | .columnEvent c raw => columnByte (some c) ++ raw
  | .gap count => smallCount count

/-- The frame of a notice (07 R147). -/
def Notice.frame (n : Notice) : Frame := ⟨serverStation, 0#4, n.kind, n.body⟩

/-- The frame of a reply (07 R131, R145). -/
def Reply.frame (r : Reply) : Frame := ⟨serverStation, r.src, r.kind, r.body⟩

/-- A GAP notice takes the entry a leaving notice has freed, while the gap count is above 0 (11 R199). -/
def State.fillGap (s : State) : State :=
  if 0 < s.gap then { s with notices := s.notices ++ [.gap s.gap], gap := 0 } else s

/-- The idle transmitter starts the frame at the head of the reply queue, or else of the notice queue
(11 R198). Taken at the end of every event (log 8). -/
def State.transmit (s : State) : State :=
  if s.sending.isSome then s
  else
    match s.replies, s.notices with
    | r :: rest, _ => { s with replies := rest, sending := some ⟨r.frame.chars, r.restart⟩ }
    | [], n :: rest =>
      State.fillGap { s with notices := rest, sending := some ⟨n.frame.chars, false⟩ }
    | [], [] => s

/-- PASS operations outstanding (09 R171). -/
def State.passOutstanding (s : State) : Nat := s.ops.countP fun op => op.origin == .pass

/-- The reply queue has more free entries than PASS operations are outstanding (11 R196, R197). -/
def State.replyRoom (s : State) : Bool := decide (s.passOutstanding < replySize - s.replies.length)

/-- MI may take the head of the inbox (11 R197, R207). -/
def State.canTake (s : State) : Bool := s.replyRoom && !s.restartPending

/-- MI takes the head of the inbox when it is a management request of the kind, and acts on its body
(11 R197). Otherwise nothing happens (log 1). -/
def State.takeRequest (s : State) (kind : Byte) (act : State → List Byte → State) : State :=
  match s.inbox with
  | [] => s
  | f :: rest =>
    if f.dest = 0#4 ∧ f.kind = kind ∧ s.canTake then act { s with inbox := rest } f.body else s

/-- MI places the reply to a management request (11 R197, 07 R145). -/
def State.answer (s : State) (kind : Byte) (status : Status) (data : List Byte) : State :=
  s.placeReply ⟨replyKind kind, 0#4, status.code :: data, false⟩

/-- The court-time mark and the present court time (07 R146). -/
def State.courtBytes (s : State) : List Byte :=
  match s.court with
  | none => beBytes 5 0
  | some t => markByte true :: beBytes 4 t

/-! ## Counters (11 R206) -/

/-- Counter 1. -/
def State.countServerDiscard (s : State) : State :=
  { s with counters := { s.counters with serverDiscarded := satInc maxCourt s.counters.serverDiscarded } }

/-- Counter 2. -/
def State.countColumnDiscard (s : State) : State :=
  { s with counters := { s.counters with columnDiscarded := satInc maxCourt s.counters.columnDiscarded } }

/-- Counter 3. -/
def State.countSilent (s : State) : State :=
  { s with counters := { s.counters with silent := satInc maxCourt s.counters.silent } }

/-- Counter 4. -/
def State.countMatched (s : State) : State :=
  { s with counters := { s.counters with matched := satInc maxCourt s.counters.matched } }

/-- Counter 5. -/
def State.countWrong (s : State) : State :=
  { s with counters := { s.counters with wrong := satInc maxCourt s.counters.wrong } }

/-- Counter 6. -/
def State.countReleaseFailed (s : State) : State :=
  { s with counters := { s.counters with releasesFailed := satInc maxCourt s.counters.releasesFailed } }

/-- Counter 7. -/
def State.countExpired (s : State) : State :=
  { s with counters := { s.counters with expired := satInc maxCourt s.counters.expired } }

/-! ## The Operation Queue (09 R166 to R171) -/

/-- Unoccupied entries among 1 to 31, less the held ones (09 R167). -/
def State.freeEntries (s : State) : Nat :=
  sharedEntries - s.ops.countP (fun op => op.tag != 0) - s.reserve

/-- The queue has a free entry (09 R168). -/
def State.hasRoom (s : State) : Bool := decide (0 < s.freeEntries)

/-- The lowest-numbered unoccupied entry among 1 to 31 (09 R168). Entries held for a FETCH are held by their count
alone, so none of them is passed over here: DESIGN CHOICE (log 38). -/
def State.lowestTag (s : State) : Nat :=
  ((List.range' 1 sharedEntries).find? fun t => s.ops.all fun op => op.tag != t).getD sharedEntries

/-- Queues an operation at the tail, when there is a free entry (09 R168). -/
def State.enqueue (s : State) (op : Op) : State :=
  if s.hasRoom then
    { s with ops := s.ops ++ [{ op with tag := s.lowestTag, notBefore := s.now, inFlight := false }] }
  else s

/-- Removes the operation of a tag (09 R175). -/
def State.removeOp (s : State) (tag : Nat) : State :=
  { s with ops := s.ops.filter fun op => op.tag != tag }

/-- Replaces the operation of a tag in its place (09 R168, R175). -/
def State.updateOp (s : State) (tag : Nat) (f : Op → Op) : State :=
  { s with ops := s.ops.map fun op => if op.tag = tag then f op else op }

/-- The operation of a tag. -/
def State.opOf (s : State) (tag : Nat) : Option Op := s.ops.find? fun op => op.tag == tag

/-- The operation is an UNLATCH of either side for locker `l`. -/
def Op.isUnlatch (op : Op) (l : LockerId) : Bool :=
  op.kind == 0x04#8 && op.dest == .column (lockerCol l) && op.position == some (lockerPos l)
    && (op.origin == .collect || op.origin == .load || op.origin == .clear)

/-- A door operation is outstanding for locker `l` (02 R31, 09 R171). -/
def State.doorBusy (s : State) (l : LockerId) : Bool := s.ops.any fun op => op.isUnlatch l

/-- The operation is a purge request of the kind for locker `l`. -/
def Op.isPurge (op : Op) (kind : Byte) (l : LockerId) : Bool :=
  op.kind == kind && op.origin == .purge && op.dest == .column (lockerCol l)
    && op.position == some (lockerPos l)

/-- A PURGE-START is outstanding for locker `l` (05 R102). -/
def State.startOutstanding (s : State) (l : LockerId) : Bool := s.ops.any fun op => op.isPurge 0x06#8 l

/-- A PURGE-ABORT is outstanding for locker `l` (06 R124, R125). -/
def State.abortOutstanding (s : State) (l : LockerId) : Bool := s.ops.any fun op => op.isPurge 0x07#8 l

/-- A FETCH for column `c` is queued or in flight (09 R171). -/
def State.fetchOutstanding (s : State) (c : Col) : Bool :=
  s.ops.any fun op => op.origin == .fetch && op.dest == .column c

/-- Entry 0 holds a POLL (09 R171). -/
def State.pollOutstanding (s : State) : Bool := s.ops.any fun op => op.tag == 0

/-- An operation record with the fields its queuing block leaves out absent (09 R166). -/
def Op.blank (dest : Dest) (kind : Byte) (mode : Mode) (cls : OpClass) (origin : Origin)
    (body : List Byte) : Op :=
  { tag := 0, dest := dest, kind := kind, position := none, side := none, mode := mode, cls := cls
    origin := origin, slot := none, inboxRef := none, body := body, notBefore := 0, inFlight := false }

/-- UNLATCH of a side (02 section 2.2, 08 Table 8-2). -/
def unlatchOp (l : LockerId) (side : Side) (origin : Origin) (slot : Option Slot) : Op :=
  { Op.blank (.column (lockerCol l)) 0x04#8 (.untilMet 6 0) .urgent origin
      (u8 ((lockerPos l).val + 1) ++ u8 side.code) with
    position := some (lockerPos l), side := some side, slot := slot }

/-- PANEL-SHOW on a side (03 R55, 04 R75). -/
def panelOp (c : Col) (side : Side) (m : Message) : Op :=
  { Op.blank (.column c) 0x08#8 .once .urgent .panel
      (u8 side.code ++ u8 m.code.1 ++ beBytes 2 m.code.2) with
    side := some side }

/-- PURGE-START (0x06) or PURGE-ABORT (0x07) (05 R106, 06 R125). -/
def purgeOp (kind : Byte) (l : LockerId) : Op :=
  { Op.blank (.column (lockerCol l)) kind .once .routine .purge (u8 ((lockerPos l).val + 1)) with
    position := some (lockerPos l) }

/-- HEAT-SET with eight duty values (05 R105). -/
def heatOp (c : Col) (duties : Bank Nat 8) : Op :=
  Op.blank (.column c) 0x05#8 .once .routine .heat (duties.cells.flatMap u8)

/-- FETCH (10 R186). -/
def fetchOp (c : Col) : Op := Op.blank (.column c) 0x02#8 (.untilEmpty 0) .urgent .fetch []

/-- POLL, in entry 0 (10 R180). Its record's mode, which no rule gives, is ONCE: DESIGN CHOICE (log 41). -/
def pollOp (now : Time) : Op :=
  { Op.blank .all 0x01#8 .once .urgent .poll [] with notBefore := now }

/-- A walk of a list of columns (10 R187). -/
def walkOp (first : Col) (others : List Col) (cause : WalkCause) : Op :=
  { Op.blank (.column first) 0x03#8 (.walk ⟨[], first, others, 0, cause⟩) .routine .roll [] with
    position := some 0 }

/-- A pass-through operation (11 R202). -/
def passOp (dest : Dest) (kind : Byte) (mode : Mode) (body : List Byte) : Op :=
  { Op.blank dest kind mode .routine .pass body with inboxRef := some ⟨kind, dest.station⟩ }

/-- PANEL-SHOW queued by LE, or by CE at an outcome, only to a reachable column (04 R75, 03 R66). -/
def State.showIfReachable (s : State) (c : Col) (side : Side) (m : Message) : State :=
  if s.reachable c then s.enqueue (panelOp c side m) else s

/-! ## One event -/

/-- One event of a running part: nothing happens while RESET_N holds the part (log 6); at the end of the
event the idle transmitter takes up the next frame (11 R198, log 8). -/
def event (f : State → State) (s : State) : Host.Outcome State Fault Refusal :=
  .next (if s.held then s else (f s).transmit)

end Sys2Proof.Machine
end

