-- ==== Sys2Proof/Machine/Reservations.lean ====
section
/-! DEFINITION. The Reservation Table (chapter 1): expiry, the moves of Table 1-3, the reservation requests
and the TRAIN-SHIFT walk. -/

namespace Sys2Proof.Machine

open Config

/-! ## Expiry (01 R12 to R16) -/

/-- An entry is overdue when court time is set and its close is at or before it (01 R12). -/
def State.overdue (s : State) (r : Reservation) : Bool :=
  match s.court with
  | none => false
  | some t => decide (r.closes ≤ t)

/-- The entry of a slot ends with a reason: it becomes FREE, "meals expired" counts every reason but
NOT-LOADED, and EXPIRED is queued (01 R13 steps 1 and 3, R16). -/
def State.endEntry (s : State) (i : Slot) (why : Reason) : State :=
  match s.entry i with
  | none => s
  | some r =>
    let s1 := s.setEntry i none
    let s2 := if why = .notLoaded then s1 else s1.countExpired
    s2.queueNotice (.expired r.tag why r.stage.locker)

/-- The expiry action: the entry ends and its locker, if it is bound, takes the state given (01 R13). -/
def State.expire (s : State) (i : Slot) (why : Reason) (goes : LockerState) : State :=
  match s.entry i with
  | none => s
  | some r =>
    match r.stage.locker with
    | some l => (s.enterLocker l goes).endEntry i why
    | none => s.endEntry i why

/-- The expiry action whose cause gives no locker state: the locker becomes SPOILED with the entry's tag
(01 R13 step 2). -/
def State.expireSpoiled (s : State) (i : Slot) (why : Reason) : State :=
  match s.entry i with
  | none => s
  | some r => s.expire i why (.spoiled (some ⟨r.tag, why⟩))

/-- The stage with a timed reason made its expiry pending, the first standing (01 R14). -/
def Stage.withPending (st : Stage) (why : Reason) : Stage :=
  match st with
  | .releasing l t none => .releasing l t (some why)
  | .opened l t none => .opened l t (some why)
  | other => other

/-- A timed reason WINDOW, HOLD or COLD reaches a held meal's entry (01 R13, R14): READY expires, RELEASING
and OPEN keep the first as expiry pending. -/
def State.bringTimed (s : State) (i : Slot) (why : Reason) : State :=
  match s.entry i with
  | none => s
  | some r =>
    match r.stage with
    | .booked => s
    | .loading _ => s
    | .ready _ _ => s.expireSpoiled i why
    | .releasing _ _ _ => s.setEntry i (some { r with stage := r.stage.withPending why })
    | .opened _ _ _ => s.setEntry i (some { r with stage := r.stage.withPending why })

/-- The window-close action of an entry that is overdue (01 R12, Table 1-4). -/
def State.windowDue (s : State) (i : Slot) : State :=
  match s.entry i with
  | none => s
  | some r =>
    if s.overdue r then
      match r.stage with
      | .booked => s.endEntry i .notLoaded
      | .loading _ => s
      | .ready _ _ => s.bringTimed i .window
      | .releasing _ _ _ => s.bringTimed i .window
      | .opened _ _ _ => s.bringTimed i .window
    else s

/-- The hold deadline of a held meal falls due (05 R116). -/
def State.holdDue (s : State) (l : LockerId) : State :=
  match (s.locker l).state.meal, s.court with
  | some (i, m), some t => if m.deadline ≤ t then s.bringTimed i .hold else s
  | _, _ => s

/-! ## Moves (01 R6, Table 1-3) -/

/-- The entry of slot `i` bound to locker `l`, if the entry names that locker (01 R6, 02 R32). -/
def State.boundEntry (s : State) (i : Slot) (l : LockerId) : Option Reservation :=
  match s.entry i with
  | none => none
  | some r => if r.stage.locker = some l then some r else none

/-- A close limited to the hold deadline of a locker that holds a meal (01 R7). -/
def State.limitClose (s : State) (l : LockerId) (close : Nat) : Nat :=
  match (s.locker l).state.meal with
  | some (_, m) => min close m.deadline
  | none => close

/-- Load complete: the entry becomes READY, the locker HOLDING with its hold deadline, close is limited, and
LOADED is queued, or the entry expires WINDOW when it is overdue (04 R87, R88). -/
def State.loadComplete (s : State) (l : LockerId) : State :=
  match (s.locker l).state with
  | .loading i _ _ =>
    match s.boundEntry i l with
    | none => s
    | some r =>
      let now := s.court.getD 0
      let deadline := satAdd now (r.holdOverride.getD (s.classOf r).holdLimit)
      let ready := { r with stage := .ready l now, closes := min r.closes deadline }
      let s1 := (s.enterLocker l (.holding i ⟨deadline, 0⟩)).setEntry i (some ready)
      if s1.overdue ready then s1.expireSpoiled i .window
      else s1.queueNotice (.loaded r.tag l ready.closes)
  | _ => s

/-- Load undone: the entry becomes BOOKED, the locker takes the state given, and an overdue entry expires
NOT-LOADED (04 R89, R84; 01 R12). -/
def State.loadUndone (s : State) (l : LockerId) (goes : LockerState) : State :=
  match (s.locker l).state with
  | .loading i _ _ =>
    match s.boundEntry i l with
    | none => s.enterLocker l goes
    | some r =>
      ((s.enterLocker l goes).setEntry i (some { r with stage := .booked })).windowDue i
  | _ => s

/-- A meal of a release is returned: READY and HOLDING with the notice given, or the pending expiry
(01 R15, 03 R70, R71). -/
def State.returnMeal (s : State) (l : LockerId) (notice : Nat → LockerId → Notice) : State :=
  match (s.locker l).state.meal with
  | none => s
  | some (i, m) =>
    match s.boundEntry i l with
    | none => s
    | some r =>
      match r.stage with
      | .releasing _ t none =>
        (((s.enterLocker l (.holding i m)).setEntry i (some { r with stage := .ready l t })).queueNotice
          (notice r.tag l)).windowDue i
      | .opened _ t none =>
        (((s.enterLocker l (.holding i m)).setEntry i (some { r with stage := .ready l t })).queueNotice
          (notice r.tag l)).windowDue i
      | .releasing _ _ (some why) => s.expireSpoiled i why
      | .opened _ _ (some why) => s.expireSpoiled i why
      | .booked => s
      | .loading _ => s
      | .ready _ _ => s

/-- The expiry pending of a stage (01 R14). -/
def Stage.pending : Stage → Option Reason
  | .releasing _ _ p => p
  | .opened _ _ p => p
  | .booked | .loading _ | .ready _ _ => none

/-- A meal of a release is taken: the entry becomes FREE, the locker PURGE-WAIT, and COLLECTED is queued with
the late mark (01 R15, 03 R69). -/
def State.collectMeal (s : State) (l : LockerId) : State :=
  match (s.locker l).state.meal with
  | none => s
  | some (i, _) =>
    match s.boundEntry i l with
    | none => s
    | some r =>
      match r.stage with
      | .releasing _ _ p =>
        ((s.enterLocker l .purgeWait).setEntry i none).queueNotice (.collected r.tag l p.isSome)
      | .opened _ _ p =>
        ((s.enterLocker l .purgeWait).setEntry i none).queueNotice (.collected r.tag l p.isSome)
      | .booked => s
      | .loading _ => s
      | .ready _ _ => s

/-! ## RES-PUT (01 R17, R18) -/

/-- A RES-PUT field is out of range at court time `t` (01 R17 test 2). -/
def State.resPutBad (s : State) (q : ResPutReq) (t : Nat) : Bool :=
  let classBad :=
    match classNumber q.cls with
    | none => true
    | some k =>
      match s.classes.get k with
      | none => true
      | some rec =>
        match q.holdOverride with
        | none => false
        | some h => decide (h < 600 ∨ rec.holdLimit < h)
  q.tag == 0 || q.code == none || q.code == some 0 || classBad || decide (q.closes ≤ q.opens)
    || decide (q.closes ≤ t)

/-- RT decides a RES-PUT (01 R17, R18). -/
def State.resPut (s : State) (body : List Byte) : State :=
  let refuse (st : Status) := s.answer 0x40#8 st []
  match resPutReq body with
  | none => refuse .badField
  | some q =>
    match s.mode, s.court with
    | .drain, _ => refuse .notNow
    | _, none => refuse .notNow
    | _, some t =>
      if s.resPutBad q t then refuse .badField
      else
        match q.code, classNumber q.cls with
        | some code, some cls =>
          if (s.findTag q.tag).isSome || (s.findCode code).isSome then refuse .duplicate
          else
            match s.entries.find fun e => e.isNone with
            | none => refuse .full
            | some i =>
              (s.setEntry i (some
                { tag := q.tag, code := code, cls := cls, opens := q.opens, closes := q.closes
                  train := q.train, holdOverride := q.holdOverride, stage := .booked })).answer
                0x40#8 .ok (u8 i.val)
        | _, _ => refuse .badField

/-- RES_PUT (01 R17). -/
def execResPut (s : State) : Host.Outcome State Fault Refusal :=
  event (fun s => s.takeRequest 0x40#8 State.resPut) s

/-! ## RES-DROP (01 R19) -/

/-- RT decides a RES-DROP (01 R19, Table 1-6). -/
def State.resDrop (s : State) (body : List Byte) : State :=
  match numberReq 4 body with
  | none => s.answer 0x41#8 .badField []
  | some tag =>
    if tag = 0 then s.answer 0x41#8 .badField []
    else
      match s.findTag tag with
      | none => s.answer 0x41#8 .notFound []
      | some i =>
        match s.entry i with
        | none => s.answer 0x41#8 .notFound []
        | some r =>
          match r.stage with
          | .booked => (s.setEntry i none).answer 0x41#8 .ok []
          | .ready l _ =>
            ((s.enterLocker l (.spoiled (some ⟨r.tag, .dropped⟩))).setEntry i none).answer 0x41#8 .ok []
          | .loading _ => s.answer 0x41#8 .inUse []
          | .releasing _ _ _ => s.answer 0x41#8 .inUse []
          | .opened _ _ _ => s.answer 0x41#8 .inUse []

/-- RES_DROP (01 R19). -/
def execResDrop (s : State) : Host.Outcome State Fault Refusal :=
  event (fun s => s.takeRequest 0x41#8 State.resDrop) s

/-! ## RES-SHIFT (01 R20, R21) -/

/-- The close RT writes for an entry: limited to the hold deadline in READY (01 R7, R21). -/
def State.closeFor (s : State) (r : Reservation) (close : Nat) : Nat :=
  match r.stage with
  | .ready l _ => s.limitClose l close
  | .booked => close
  | .loading _ => close
  | .releasing _ _ _ => close
  | .opened _ _ _ => close

/-- The stage is RELEASING or OPEN. -/
def Stage.atDoor : Stage → Bool
  | .releasing _ _ _ => true
  | .opened _ _ _ => true
  | .booked | .loading _ | .ready _ _ => false

/-- RT decides a RES-SHIFT (01 R20, R21). -/
def State.resShift (s : State) (body : List Byte) : State :=
  match resShiftReq body with
  | none => s.answer 0x42#8 .badField []
  | some q =>
    if q.tag = 0 then s.answer 0x42#8 .badField []
    else
      match s.findTag q.tag with
      | none => s.answer 0x42#8 .notFound []
      | some i =>
        match s.entry i with
        | none => s.answer 0x42#8 .notFound []
        | some r =>
          let opens := q.opens.getD r.opens
          if r.stage.atDoor then s.answer 0x42#8 .inUse []
          else if q.closes ≤ opens then s.answer 0x42#8 .badField []
          else
            let close := s.closeFor r q.closes
            let s1 := (s.setEntry i (some { r with opens := opens, closes := close })).windowDue i
            s1.answer 0x42#8 (if close < q.closes then .clipped else .ok) (u8 i.val ++ beBytes 4 close)

/-- RES_SHIFT (01 R20). -/
def execResShift (s : State) : Host.Outcome State Fault Refusal :=
  event (fun s => s.takeRequest 0x42#8 State.resShift) s

/-! ## TRAIN-SHIFT (01 R22 to R24) -/

/-- RT decides a TRAIN-SHIFT (01 R22). -/
def State.trainShift (s : State) (body : List Byte) : State :=
  match trainShiftReq body with
  | none => s.answer 0x43#8 .badField []
  | some q =>
    if q.train = 0 ∨ q.delta < -3600 ∨ 7200 < q.delta then s.answer 0x43#8 .badField []
    else
      match s.shift with
      | some _ => s.answer 0x43#8 .busy []
      | none =>
        State.answer { s with shift := some ⟨q.train, q.delta, 0, 0, 0, s.now + ms 1⟩ } 0x43#8 .accepted []

/-- TRAIN_SHIFT (01 R22). -/
def execTrainShift (s : State) : Host.Outcome State Fault Refusal :=
  event (fun s => s.takeRequest 0x43#8 State.trainShift) s

/-- One visit of the walk on the entry at its cursor: the part after it and the walk's counts (01 R23). -/
def State.visitSlot (s : State) (w : ShiftWalk) : State × ShiftWalk :=
  match s.entry w.cursor with
  | none => (s, w)
  | some r =>
    if r.train = some w.train then
      if r.stage.atDoor then (s, { w with skipped := w.skipped + 1 })
      else
        let moved :=
          { r with opens := shiftTime r.opens w.delta
                   closes := s.closeFor r (shiftTime r.closes w.delta) }
        ((s.setEntry w.cursor (some moved)).windowDue w.cursor, { w with shifted := w.shifted + 1 })
    else (s, w)

/-- The TRAIN-SHIFT walk visits the slot at its cursor; after slot 255 SHIFT-DONE is queued and the walk ends
(01 R23, R24). -/
def State.shiftVisit (s : State) : State :=
  match s.shift with
  | none => s
  | some w =>
    let (s1, w1) := (s.reach w.next).visitSlot w
    if h : w.cursor.val + 1 < 256 then
      { s1 with shift := some { w1 with cursor := ⟨w.cursor.val + 1, h⟩, next := w.next + ms 1 } }
    else State.queueNotice { s1 with shift := none } (.shiftDone w1.train w1.shifted w1.skipped)

/-- TRAIN_SHIFT_VISIT (01 R23). -/
def execTrainShiftVisit (s : State) : Host.Outcome State Fault Refusal := event State.shiftVisit s

/-! ## RES-READ (01 R25) -/

/-- The report of a slot, 33 bytes after the status (07 R146). -/
def State.entryReport (s : State) (i : Slot) : List Byte :=
  match s.entry i with
  | none => u8 i.val ++ u8 0 ++ s.courtBytes ++ beBytes 26 0
  | some r =>
    let loadedAt : Nat :=
      match r.stage with
      | .ready _ t => t
      | .releasing _ t _ => t
      | .opened _ t _ => t
      | .booked => 0
      | .loading _ => 0
    u8 i.val ++ u8 r.stage.code ++ s.courtBytes ++ beBytes 4 r.tag ++ codeBytes r.code ++ u8 r.cls.val
      ++ beBytes 4 r.opens ++ beBytes 4 r.closes ++ beBytes 2 (r.train.getD 0)
      ++ beBytes 2 (r.holdOverride.getD 0) ++ lockerByte r.stage.locker ++ beBytes 4 loadedAt
      ++ u8 ((r.stage.pending.map Reason.code).getD 0)

/-- RT answers a RES-READ (01 R25). -/
def State.resRead (s : State) (body : List Byte) : State :=
  match resReadReq body with
  | none => s.answer 0x44#8 .badField []
  | some (.slot i) => s.answer 0x44#8 .ok (s.entryReport i)
  | some (.tag t) =>
    if t = 0 then s.answer 0x44#8 .badField []
    else
      match s.findTag t with
      | none => s.answer 0x44#8 .notFound []
      | some i => s.answer 0x44#8 .ok (s.entryReport i)

/-- RES_READ (01 R25). -/
def execResRead (s : State) : Host.Outcome State Fault Refusal :=
  event (fun s => s.takeRequest 0x44#8 State.resRead) s

/-- WINDOW_CLOSE (01 R12). -/
def execWindowClose (slot : Slot) (s : State) : Host.Outcome State Fault Refusal :=
  event (fun s => s.windowDue slot) s

/-- HOLD_DEADLINE (05 R116). -/
def execHoldDeadline (locker : LockerId) (s : State) : Host.Outcome State Fault Refusal :=
  event (fun s => s.holdDue locker) s

/-- COURT_TIME_ADVANCE: court time advances by one second, and stops at the highest value (01 R8). -/
def State.courtAdvance (s : State) : State :=
  match s.court with
  | none => s
  | some t =>
    let s1 := s.reach s.courtNext
    { s1 with court := some (satAdd t 1), courtNext := s.courtNext + ms 1000 }

/-- COURT_TIME_ADVANCE (01 R8). -/
def execCourtTimeAdvance (s : State) : Host.Outcome State Fault Refusal := event State.courtAdvance s

end Sys2Proof.Machine
end

