-- ==== Sys2Proof/Machine/Lockers.lean ====
section
/-! DEFINITION. The Locker Table with Door Tracker (chapter 2): faults, latch confirmation, door events,
unlatch outcomes, door-held timing, LOCKER-READ and FAULT-CLEAR. -/

namespace Sys2Proof.Machine

open Config

/-! ## Faults (02 R38 to R40) -/

/-- PC queues a PURGE-ABORT: none outstanding, a free entry, and the column reachable or the cause a walk
step of it (06 R125). -/
def State.queueAbort (s : State) (l : LockerId) (walkStep : Bool) : State :=
  if s.abortOutstanding l then s
  else if walkStep || s.reachable (lockerCol l) then s.enqueue (purgeOp 0x07#8 l)
  else s

/-- The expiry reason of a bound entry (02 Table 2-4). PURGE-FAIL and PURGE-STALL never find one. -/
def LockerFault.reason : LockerFault → Reason
  | .latch => .latch
  | .sensor => .fault
  | .overheat => .fault
  | .tamper => .tamper
  | .purgeFail => .fault
  | .purgeStall => .fault

/-- A meal could be inside a bound locker (02 R34). -/
def LockerState.mealPossible : LockerState → Bool
  | .holding _ _ => true
  | .releasing _ _ => true
  | .opened _ _ _ => true
  | .loading _ ph _ => ph == .unlatched
  | .absent | .purgeWait | .purging _ | .purgeRest _ | .empty => false
  | .spoiled _ | .clearing _ _ _ | .blocked _ _ => false

/-- The stored tag and discard reason of a locker that a fault blocks (02 R34). -/
def State.storedAtFault (s : State) (l : LockerId) (fault : LockerFault) : Option Stored :=
  let st := (s.locker l).state
  match st.slot with
  | none => st.stored
  | some i =>
    match s.entry i with
    | none => none
    | some r => if st.mealPossible then some ⟨r.tag, fault.reason⟩ else none

/-- Occupied becomes UNKNOWN at a tamper (02 R38 step 4, R39). -/
def State.tamperOccupied (s : State) (l : LockerId) (fault : LockerFault) : State :=
  if fault = .tamper then s.setOccupied l .unknown else s

/-- The state is PURGING. -/
def LockerState.isPurging : LockerState → Bool
  | .purging _ => true
  | .absent | .purgeWait | .purgeRest _ | .empty | .loading _ _ _ | .holding _ _ => false
  | .releasing _ _ | .opened _ _ _ | .spoiled _ | .clearing _ _ _ | .blocked _ _ => false

/-- The fault of a purging locker stops its purge: SENSOR, OVERHEAT, TAMPER (02 R38 step 3). -/
def LockerFault.stopsPurge : LockerFault → Bool
  | .sensor => true
  | .overheat => true
  | .tamper => true
  | .latch | .purgeFail | .purgeStall => false

/-- The entry of a locker that a fault blocks: a load that fails to unlatch is undone, every other entry
expires (02 R38 step 2). The locker has been blocked already. -/
def State.faultEntry (s : State) (i : Slot) (fault : LockerFault) : State :=
  match s.entry i with
  | none => s
  | some r =>
    match fault, r.stage with
    | .latch, .loading _ => (s.setEntry i (some { r with stage := .booked })).windowDue i
    | _, _ => s.endEntry i fault.reason

/-- A fault reaches a locker that is neither BLOCKED nor ABSENT (02 R38). -/
def State.block (s : State) (l : LockerId) (fault : LockerFault) : State :=
  let st := (s.locker l).state
  let s1 := (s.enterLocker l (.blocked fault (s.storedAtFault l fault))).tamperOccupied l fault
  let s2 :=
    match st.slot with
    | some i => s1.faultEntry i fault
    | none => s1
  let s3 := if st.isPurging && fault.stopsPurge then s2.queueAbort l false else s2
  s3.queueNotice (.lockerFault l fault)

/-- A fault reaches a locker (02 R38, R39). -/
def State.takeFault (s : State) (l : LockerId) (fault : LockerFault) : State :=
  match (s.locker l).state with
  | .absent => s
  | .blocked _ _ => s.tamperOccupied l fault
  | .purgeWait | .purging _ | .purgeRest _ | .empty | .loading _ _ _ | .holding _ _ => s.block l fault
  | .releasing _ _ | .opened _ _ _ | .spoiled _ | .clearing _ _ _ => s.block l fault

/-! ## Latch confirmation and unlatch outcomes (02 R36, R42, R44, R48) -/

/-- The stage of an entry whose front latch is confirmed (01 Table 1-3, unlatched). -/
def Stage.unlatched : Stage → Stage
  | .releasing l t p => .opened l t p
  | other => other

/-- The latch of the side in use is confirmed, with a bounce mask after DONE and without one after a door
event (02 R44, R48; 03 R65; 04 R83, R92). -/
def State.confirmLatch (s : State) (l : LockerId) (mask : Option Time) : State :=
  match (s.locker l).state with
  | .releasing i m =>
    match s.boundEntry i l with
    | none => s
    | some r =>
      ((s.enterLocker l (.opened i m ⟨none, false, mask⟩)).setEntry i
        (some { r with stage := r.stage.unlatched })).queueNotice (.released r.tag l)
  | .loading i .awaitLatch _ => s.enterLocker l (.loading i .unlatched ⟨some s.now, false, mask⟩)
  | .clearing st .awaitLatch _ => s.enterLocker l (.clearing st .unlatched ⟨some s.now, false, mask⟩)
  | _ => s

/-- The side in use of a state (02 Table 2-2). -/
def LockerState.sideInUse : LockerState → Option Side
  | .loading _ _ _ => some .back
  | .clearing _ _ _ => some .back
  | .releasing _ _ => some .front
  | .opened _ _ _ => some .front
  | .absent | .purgeWait | .purging _ | .purgeRest _ | .empty => none
  | .holding _ _ | .spoiled _ | .blocked _ _ => none

/-- The phase of a state that has a side in use (02 R36). -/
def LockerState.phase : LockerState → Option Phase
  | .loading _ ph _ => some ph
  | .clearing _ ph _ => some ph
  | .releasing _ _ => some .awaitLatch
  | .opened _ _ _ => some .unlatched
  | .absent | .purgeWait | .purging _ | .purgeRest _ | .empty => none
  | .holding _ _ | .spoiled _ | .blocked _ _ => none

/-- The door timing of a state. -/
def LockerState.door : LockerState → Option Door
  | .loading _ _ d => some d
  | .clearing _ _ d => some d
  | .opened _ _ d => some d
  | .absent | .purgeWait | .purging _ | .purgeRest _ | .empty => none
  | .holding _ _ | .releasing _ _ | .spoiled _ | .blocked _ _ => none

/-- The state with its door timing replaced. -/
def LockerState.withDoor (st : LockerState) (d : Door) : LockerState :=
  match st with
  | .loading i ph _ => .loading i ph d
  | .clearing t ph _ => .clearing t ph d
  | .opened i m _ => .opened i m d
  | other => other

/-- Outcomes of an operation other than PAUSED, DONE with the MET flag and the reply (08 Table 8-3). -/
inductive Outcome where
  | done (met : Bool) (kind : Byte) (body : List Byte)
  | unmet
  | failed
  | silent
  | cancelled
deriving DecidableEq, Repr

/-- The handshake of an UNLATCH still stands (02 R48, Table 2-5). -/
def State.handshakeStands (s : State) (l : LockerId) (origin : Origin) (slot : Option Slot) : Bool :=
  match origin, (s.locker l).state with
  | .collect, .releasing i _ => slot == some i
  | .load, .loading i .awaitLatch _ => slot == some i
  | .clear, .clearing _ .awaitLatch _ => true
  | _, _ => false

/-- The unlatch of a release, a load or a clearing has failed (03 R66; 04 R84, R92). -/
def State.unlatchFailed (s : State) (l : LockerId) (origin : Origin) : State :=
  let s1 := s.takeFault l .latch
  match origin with
  | .collect => s1.countReleaseFailed.showIfReachable (lockerCol l) .front .seeCounter
  | _ => s1.showIfReachable (lockerCol l) .back (.latchFault l)

/-- The outcome of an UNLATCH reaches LT (02 R48). -/
def State.unlatchOutcome (s : State) (l : LockerId) (origin : Origin) (slot : Option Slot)
    (out : Outcome) : State :=
  if s.handshakeStands l origin slot then
    match out with
    | .done _ _ _ => s.confirmLatch l (some (s.now + bounceMask))
    | .unmet => s.unlatchFailed l origin
    | .failed => s.unlatchFailed l origin
    | .silent => s.unlatchFailed l origin
    | .cancelled => s
  else s

/-! ## Clearing ends (04 R93, R94) -/

/-- A clearing, or a walk, finds the compartment of a SPOILED or CLEARING locker empty (04 R93). -/
def State.discard (s : State) (l : LockerId) : State :=
  (s.enterLocker l .purgeWait).queueNotice (.discarded (s.locker l).state.stored l)

/-- A clearing ends with the meal inside (04 R94). -/
def State.respoil (s : State) (l : LockerId) : State :=
  s.enterLocker l (.spoiled (s.locker l).state.stored)

/-! ## Door and latch events (02 R41 to R47) -/

/-- The event falls within the bounce mask of the side in use (02 R42). -/
def State.masked (s : State) (l : LockerId) : Bool :=
  match (s.locker l).state.door with
  | some d =>
    match d.mask with
    | some t => decide (s.now < t)
    | none => false
  | none => false

/-- A door event in phase AWAIT-LATCH shows that the latch is open (02 R44). -/
def State.confirmByEvent (s : State) (l : LockerId) : State :=
  if (s.locker l).state.phase = some .awaitLatch then s.confirmLatch l none else s

/-- Door open since is written by the first DOOR-OPENED FRONT (02 R44). -/
def State.noteOpening (s : State) (l : LockerId) : State :=
  match (s.locker l).state with
  | .opened i m d =>
    if d.since = none then s.enterLocker l (.opened i m { d with since := some s.now }) else s
  | _ => s

/-- DOOR-OPENED for a locker (02 R41 to R45, 03 R68, 04 R86). -/
def State.doorOpened (s : State) (l : LockerId) (side : Side) : State :=
  match (s.locker l).state with
  | .absent => s
  | st =>
    if st.sideInUse = some side then
      if s.masked l then s else (s.confirmByEvent l).noteOpening l
    else s.takeFault l .tamper

/-- The closing of the side in use, after LT's own part (03 R69, R70; 04 R87, R89, R93, R94). -/
def State.closing (s : State) (l : LockerId) (occ : Bool) : State :=
  match (s.locker l).state with
  | .opened _ _ _ => if occ then s.returnMeal l .returned else s.collectMeal l
  | .loading _ _ _ => if occ then s.loadComplete l else s.loadUndone l .empty
  | .clearing _ _ _ => if occ then s.respoil l else s.discard l
  | _ => s

/-- DOOR-CLOSED for a locker (02 R33, R41 to R46). -/
def State.doorClosed (s : State) (l : LockerId) (side : Side) (occ : Bool) : State :=
  match (s.locker l).state with
  | .absent => s
  | st =>
    if st.sideInUse = some side then
      if s.masked l then s
      else ((s.setOccupied l (if occ then .yes else .no)).confirmByEvent l).closing l occ
    else s.setOccupied l (if occ then .yes else .no)

/-- The relatch of the side in use (03 R71; 04 R89, R94). -/
def State.relatching (s : State) (l : LockerId) : State :=
  match (s.locker l).state with
  | .opened _ _ _ => s.returnMeal l .notOpened
  | .loading _ _ _ => s.loadUndone l .empty
  | .clearing _ _ _ => s.respoil l
  | _ => s

/-- RELATCHED for a locker (02 R44, R46). -/
def State.relatched (s : State) (l : LockerId) (side : Side) : State :=
  if (s.locker l).state.sideInUse = some side then (s.confirmByEvent l).relatching l else s

/-! ## Door-held timing (02 R49) -/

/-- The limit of the side in use of a state (02 R49). -/
def LockerState.heldLimit : LockerState → Time
  | .opened _ _ _ => ms 90000
  | _ => ms 120000

/-- The door-held check of a locker reaches its limit: one DOOR-HELD notice for each stay (02 R49). -/
def State.doorHeldDue (s : State) (l : LockerId) : State :=
  let st := (s.locker l).state
  match st.door, st.sideInUse with
  | some d, some side =>
    match d.since with
    | none => s
    | some t =>
      if d.reported then s
      else
        (((s.reach (t + st.heldLimit)).enterLocker l (st.withDoor { d with reported := true })).queueNotice
          (.doorHeld l side))
  | _, _ => s

/-- DOOR_HELD (02 R49). -/
def execDoorHeld (locker : LockerId) (s : State) : Host.Outcome State Fault Refusal :=
  event (fun s => s.doorHeldDue locker) s

/-! ## LOCKER-READ (02 R50, 07 R146) -/

/-- An optional field at its full width: zero when absent (07 R146). -/
def optBytes (n : Nat) (v : Option Nat) : List Byte := beBytes n (v.getD 0)

/-- The presence mask: bit k of the number is set when the kth mark is (07 R146). -/
def presenceMask (marks : List Bool) : Nat :=
  marks.foldr (fun b acc => (if b then 1 else 0) + 2 * acc) 0

/-- Milliseconds elapsed, whole ones, saturating (02 R50, log 13). -/
def elapsedMs (now since : Time) : Nat := min maxCourt ((now - since) / 1000)

/-- Milliseconds remaining, a begun one counted, 0 once passed (02 R50, log 13). -/
def remainingMs (now until_ : Time) : Nat := (until_ - now + 999) / 1000

/-- Purge started, if it holds a court time (06 R121). -/
def LockerState.purgeStarted : LockerState → Option Nat
  | .purging t => t
  | _ => none

/-- Rest until, if it holds a court time (06 R126). -/
def LockerState.restUntil : LockerState → Option Nat
  | .purgeRest t => t
  | _ => none

/-- The fault of a BLOCKED locker. -/
def LockerState.fault : LockerState → Option LockerFault
  | .blocked f _ => some f
  | _ => none

/-- The report of a locker, 46 bytes after the status (07 R146). -/
def State.lockerReport (s : State) (l : LockerId) : List Byte :=
  let lk := s.locker l
  let st := lk.state
  let meal := st.meal.map (·.2)
  let since := st.door.bind (·.since)
  let mask := st.door.bind (·.mask)
  let marks : List Bool :=
    [st.slot.isSome, st.stored.isSome, st.stored.isSome, st.fault.isSome, st.phase.isSome, meal.isSome,
      meal.isSome, lk.lastTemp.isSome, since.isSome, mask.isSome, st.purgeStarted.isSome,
      st.restUntil.isSome]
  u8 (l.val + 1) ++ u8 st.code ++ u8 lk.rating ++ u8 lk.occupied.code ++ u8 lk.demand ++ u8 lk.refusals
    ++ beBytes 2 (presenceMask marks)
    ++ optBytes 1 (st.slot.map (·.val)) ++ optBytes 4 (st.stored.map (·.tag))
    ++ optBytes 1 (st.stored.map (·.reason.code)) ++ optBytes 1 (st.fault.map LockerFault.code)
    ++ optBytes 1 (st.phase.map Phase.code)
    ++ optBytes 4 (meal.map (·.deadline)) ++ optBytes 4 (meal.map fun m => min maxCourt m.cold)
    ++ beInt16 (lk.lastTemp.getD 0)
    ++ optBytes 4 (since.map (elapsedMs s.now)) ++ optBytes 2 (mask.map (remainingMs s.now))
    ++ optBytes 4 st.purgeStarted ++ optBytes 4 st.restUntil
    ++ [markByte (s.doorBusy l)] ++ s.courtBytes

/-- LT answers a LOCKER-READ (02 R50). -/
def State.lockerRead (s : State) (body : List Byte) : State :=
  match (numberReq 1 body).bind lockerNumber with
  | none => s.answer 0x46#8 .badField []
  | some l => s.answer 0x46#8 .ok (s.lockerReport l)

/-- LOCKER_READ (02 R50). -/
def execLockerRead (s : State) : Host.Outcome State Fault Refusal :=
  event (fun s => s.takeRequest 0x46#8 State.lockerRead) s

/-! ## FAULT-CLEAR (02 R51) -/

/-- LT decides a FAULT-CLEAR (02 R51, Table 2-6). -/
def State.faultClear (s : State) (body : List Byte) : State :=
  match (numberReq 1 body).bind lockerNumber with
  | none => s.answer 0x47#8 .badField []
  | some l =>
    match (s.locker l).state with
    | .blocked _ stored =>
      let goes : LockerState :=
        if (s.locker l).occupied = .no then .purgeWait else .spoiled stored
      (s.enterLocker l goes).answer 0x47#8 .ok (u8 goes.code)
    | _ => s.answer 0x47#8 .inUse []

/-- FAULT_CLEAR (02 R51). -/
def execFaultClear (s : State) : Host.Outcome State Fault Refusal :=
  event (fun s => s.takeRequest 0x47#8 State.faultClear) s

end Sys2Proof.Machine
end

