-- ==== Sys2Proof/Machine/Purge.lean ====
section
/-! DEFINITION. Purge Control (chapter 6): starts, completions, stalls, aborts and rests. -/

namespace Sys2Proof.Machine

open Config

/-- A purge stalls when court time reaches purge started + 600 (06 R123). -/
def State.stallDue (s : State) (l : LockerId) : State :=
  match (s.locker l).state, s.court with
  | .purging (some t), some now =>
    if satAdd t stallSeconds ≤ now then (s.takeFault l .purgeStall).queueAbort l false else s
  | _, _ => s

/-- A rest ends when court time reaches rest until (06 R126). -/
def State.restDue (s : State) (l : LockerId) : State :=
  match (s.locker l).state, s.court with
  | .purgeRest (some t), some now => if t ≤ now then s.enterLocker l .purgeWait else s
  | _, _ => s

/-- A locker comes to rest for 120 s; a rest until already reached ends at once (06 R126, 01 R8). -/
def State.startRest (s : State) (l : LockerId) : State :=
  (s.enterLocker l (.purgeRest (s.court.map fun t => satAdd t restSeconds))).restDue l

/-- A purge begins; a stall deadline already reached falls due at once (06 R119, R121, 01 R8). -/
def State.startPurging (s : State) (l : LockerId) : State :=
  (s.enterLocker l (.purging s.court)).stallDue l

/-- The outcome of a PURGE-START reaches PC (06 R119, R120). -/
def State.purgeStartOutcome (s : State) (l : LockerId) (out : Outcome) : State :=
  match out with
  | .done true _ _ =>
    match (s.locker l).state with
    | .purgeWait => s.startPurging l
    | _ => s.queueAbort l false
  | .done false _ _ => s
  | .unmet => s
  | .failed => s
  | .silent => s
  | .cancelled => s

/-- The outcome of a PURGE-ABORT reaches PC (06 R125). -/
def State.purgeAbortOutcome (s : State) (l : LockerId) (out : Outcome) : State :=
  match out with
  | .done true _ _ => if (s.locker l).state.isPurging then s.startRest l else s
  | .done false _ _ => s
  | .unmet => s
  | .failed => s
  | .silent => s
  | .cancelled => s

/-- A PURGE-DONE event for a locker (06 R122, Table 6-2). -/
def State.purgeDone (s : State) (l : LockerId) (ok : Bool) : State :=
  if (s.locker l).state.isPurging then
    if ok then s.enterLocker l .empty else s.takeFault l .purgeFail
  else s

/-- PC decides a PURGE-ABORT request (06 R124, Table 6-3). -/
def State.purgeAbort (s : State) (body : List Byte) : State :=
  match (numberReq 1 body).bind lockerNumber with
  | none => s.answer 0x4A#8 .badField []
  | some l =>
    if (s.locker l).state.isPurging then
      if s.reachable (lockerCol l) then
        if s.abortOutstanding l then s.answer 0x4A#8 .accepted []
        else if s.hasRoom then (s.queueAbort l false).answer 0x4A#8 .accepted []
        else s.answer 0x4A#8 .busy []
      else s.answer 0x4A#8 .unreachable []
    else s.answer 0x4A#8 .inUse []

/-- PURGE_ABORT (06 R124). -/
def execPurgeAbort (s : State) : Host.Outcome State Fault Refusal :=
  event (fun s => s.takeRequest 0x4A#8 State.purgeAbort) s

/-- PURGE_STALL (06 R123). -/
def execPurgeStall (locker : LockerId) (s : State) : Host.Outcome State Fault Refusal :=
  event (fun s => s.stallDue locker) s

/-- REST_END (06 R126). -/
def execRestEnd (locker : LockerId) (s : State) : Host.Outcome State Fault Refusal :=
  event (fun s => s.restDue locker) s

end Sys2Proof.Machine
end

