-- ==== Sys2Proof/Machine/Collection.lean ====
section
/-! DEFINITION. The Collection Engine (chapter 3): codes, lockouts and releases. -/

namespace Sys2Proof.Machine

open Config

/-- CE shows a message on the front panel of a column (03 R55). -/
def State.showFront (s : State) (c : Col) (m : Message) : State := s.enqueue (panelOp c .front m)

/-- A panel's lockout until falls due: the lockout ends and the wrong count is 0 (03 R59). -/
def State.lockoutDue (s : State) (c : Col) : State :=
  match (s.column c).lockout, s.court with
  | some t, some now =>
    if t ≤ now then s.setColumn c { s.column c with lockout := none, wrong := 0 } else s
  | _, _ => s

/-- A wrong code is counted and may lock the panel out (03 R58); a lockout whose end is already reached ends
at once (01 R8). -/
def State.wrongCode (s : State) (c : Col) : State :=
  let n := min 5 ((s.column c).wrong + 1)
  let s1 := (s.setColumn c { s.column c with wrong := n }).countWrong
  if n < 5 then s1.showFront c (.wrongCode (5 - n))
  else
    let until_ := satAdd (s.court.getD 0) lockoutSeconds
    (((s1.setColumn c { s1.column c with lockout := some until_ }).showFront c
      (.locked lockoutSeconds)).queueNotice (.lockout c lockoutSeconds)).lockoutDue c

/-- A release starts: entry and locker become RELEASING, the UNLATCH FRONT and then PANEL-SHOW OPEN are
queued, the wrong count is 0 and "codes matched" counts (03 R63). LT moves a HOLDING locker alone. -/
def State.startRelease (s : State) (c : Col) (i : Slot) (r : Reservation) (l : LockerId) (t : Nat) :
    State :=
  match (s.locker l).state with
  | .holding _ m =>
    let s1 := (s.setEntry i (some { r with stage := .releasing l t none })).enterLocker l (.releasing i m)
    let s2 := (s1.enqueue (unlatchOp l .front .collect (some i))).showFront c (.open_ l)
    (s2.setColumn c { s2.column c with wrong := 0 }).countMatched
  | _ => s

/-- Minutes until a window opens, rounded up, at most 999 (03 R60). -/
def minutesUntil (opens now : Nat) : Nat := min 999 ((opens - now + 59) / 60)

/-- A READY entry is found at column `c` (03 Table 3-2, rows 3 to 6). -/
def State.codeReady (s : State) (c : Col) (i : Slot) (r : Reservation) (l : LockerId) (t : Nat) : State :=
  let now := s.court.getD 0
  if now < r.opens then s.showFront c (.tooEarly (minutesUntil r.opens now))
  else if lockerCol l ≠ c then
    if s.reachable (lockerCol l) then s.showFront c (.goTo (lockerCol l)) else s.showFront c .seeCounter
  else if s.doorBusy l then s.showFront c .inProgress
  else s.startRelease c i r l t

/-- CE acts on the lookup by code (03 R57, Table 3-2). -/
def State.codeLookup (s : State) (c : Col) (digits : Option Nat) : State :=
  match digits.bind s.findCode with
  | none => s.wrongCode c
  | some i =>
    match s.entry i with
    | none => s.wrongCode c
    | some r =>
      match r.stage with
      | .booked => s.showFront c .notReady
      | .loading _ => s.showFront c .notReady
      | .ready l t => s.codeReady c i r l t
      | .releasing _ _ _ => s.showFront c .inProgress
      | .opened _ _ _ => s.showFront c .inProgress

/-- A CODE event at column `c` (03 R56). -/
def State.codeEvent (s : State) (c : Col) (digits : Option Nat) : State :=
  match s.mode with
  | .starting => s.showFront c .notInService
  | .run | .drain =>
    match (s.column c).lockout with
    | some t => s.showFront c (.locked (max 1 (t - s.court.getD 0)))
    | none => s.codeLookup c digits

/-- LOCKOUT_END (03 R59). -/
def execLockoutEnd (column : Col) (s : State) : Host.Outcome State Fault Refusal :=
  event (fun s => s.lockoutDue column) s

end Sys2Proof.Machine
end

