-- ==== Sys2Proof/Machine/Loading.lean ====
section
/-! DEFINITION. The Load Engine (chapter 4): ticket scans, allocation, binding and clearing. -/

namespace Sys2Proof.Machine

open Config

/-- LE shows a message on the back panel of a reachable column (04 R75). -/
def State.showBack (s : State) (c : Col) (m : Message) : State := s.showIfReachable c .back m

/-- A locker is a candidate for a load that needs a rating (04 R79). -/
def State.candidate (s : State) (rating : Nat) (l : LockerId) : Bool :=
  (s.locker l).state == .empty && decide (rating ≤ (s.locker l).rating) && !s.doorBusy l
    && s.workable (lockerCol l)

/-- The candidate of column `c` with the lowest position (04 R79). -/
def State.chooseIn (s : State) (rating : Nat) (c : Col) : Option LockerId :=
  (allPos.map (lockerAt c)).find? (s.candidate rating)

/-- The column `d` places below, then the one `d` places above, where they exist. -/
def atDistance (c : Col) (d : Nat) : List Col :=
  (if d ≤ c.val then [⟨c.val - d, by omega⟩] else [])
    ++ (if h : c.val + d < 8 then [⟨c.val + d, h⟩] else [])

/-- The other columns in order of distance, the lower-numbered first (04 R80). -/
def othersByDistance (c : Col) : List Col := (List.range' 1 7).flatMap (atDistance c)

/-- A load is bound to locker `l` of column `c` (04 R81). -/
def State.bindLoad (s : State) (c : Col) (i : Slot) (r : Reservation) (l : LockerId) : State :=
  let s1 := (s.setEntry i (some { r with stage := .loading l })).setLocker l
    { s.locker l with state := .loading i .awaitLatch .none, demand := (s.classOf r).units, refusals := 0 }
  (s1.enqueue (unlatchOp l .back .load (some i))).showBack c (.load l)

/-- Allocation for a BOOKED entry scanned at column `c` (04 R79, R80). -/
def State.allocate (s : State) (c : Col) (i : Slot) (r : Reservation) : State :=
  let rating := (s.classOf r).rating
  match s.chooseIn rating c with
  | some l => s.bindLoad c i r l
  | none =>
    match (othersByDistance c).find? fun k => (s.chooseIn rating k).isSome with
    | some k => (s.showBack c (.goTo k)).queueNotice (.loadRefused r.tag c (some k))
    | none => (s.showBack c .noLocker).queueNotice (.loadRefused r.tag c none)

/-- LE acts on the lookup by tag (04 R77, R78, Table 4-2). -/
def State.scanLookup (s : State) (c : Col) (tag : Nat) : State :=
  match s.findTag tag with
  | none => s.showBack c .unknownTicket
  | some i =>
    match s.entry i with
    | none => s.showBack c .unknownTicket
    | some r =>
      match r.stage with
      | .booked => s.allocate c i r
      | .loading l => if lockerCol l = c then s.showBack c (.load l) else s.showBack c .inProgress
      | .ready l _ => s.showBack c (.alreadyLoaded l)
      | .releasing l _ _ => s.showBack c (.alreadyLoaded l)
      | .opened l _ _ => s.showBack c (.alreadyLoaded l)

/-- A BACK-SCAN event at column `c` (04 R76). -/
def State.backScan (s : State) (c : Col) (tag : Nat) : State :=
  match s.mode with
  | .starting => s.showBack c .notInService
  | .drain => s.showBack c .bankClosing
  | .run => s.scanLookup c tag

/-- The locker may be cleared (04 R90). -/
def Locker.clearable (lk : Locker) : Bool :=
  match lk.state with
  | .spoiled _ => true
  | .blocked f _ => f != .latch && lk.occupied != .no
  | .absent | .purgeWait | .purging _ | .purgeRest _ | .empty | .loading _ _ _ | .holding _ _ => false
  | .releasing _ _ | .opened _ _ _ | .clearing _ _ _ => false

/-- A clearing of locker `l` starts (04 R91). -/
def State.startClearing (s : State) (c : Col) (l : LockerId) : State :=
  let s1 := s.enterLocker l (.clearing (s.locker l).state.stored .awaitLatch .none)
  (s1.enqueue (unlatchOp l .back .clear none)).showBack c (.clear l)

/-- A BACK-CLEAR event at column `c` (04 R90). -/
def State.backClear (s : State) (c : Col) (position : Nat) : State :=
  match positionNumber position with
  | none => s.showBack c .clearRefused
  | some p =>
    let l := lockerAt c p
    if s.workable c && !s.doorBusy l && (s.locker l).clearable then s.startClearing c l
    else s.showBack c .clearRefused

end Sys2Proof.Machine
end

