-- ==== Sys2Proof/Machine/Heat.lean ====
section
/-! DEFINITION. The Heat Arbiter and Hold Safety (chapter 5): classes, budgets, the heat period, readings,
cold time. -/

namespace Sys2Proof.Machine

open Config

/-! ## CLASS-SET (05 R97, R98) -/

/-- The report of a class record: its fields, zero when it is not enabled (05 R97, R98; log 14). -/
def classReport : Option FoodClass → List Byte
  | none => beBytes 11 0
  | some k =>
    [markByte true] ++ u8 k.rating ++ beInt16 k.target ++ beInt16 k.minimum ++ beBytes 2 k.holdLimit
      ++ beBytes 2 k.coldAllowance ++ u8 k.units

/-- HA decides a CLASS-SET (05 R98). -/
def State.classSet (s : State) (body : List Byte) : State :=
  match classSetReq body with
  | none => s.answer 0x48#8 .badField []
  | some q =>
    match classNumber q.cls, markOf q.enabled with
    | some k, some enabled =>
      if enabled && !q.values.inRange then s.answer 0x48#8 .badField []
      else if (s.lookup fun r => r.cls == k).isSome then s.answer 0x48#8 .inUse []
      else
        let rec_ := if enabled then some q.values else none
        State.answer { s with classes := s.classes.set k rec_ } 0x48#8 .ok (classReport rec_)
    | _, _ => s.answer 0x48#8 .badField []

/-- CLASS_SET (05 R98). -/
def execClassSet (s : State) : Host.Outcome State Fault Refusal :=
  event (fun s => s.takeRequest 0x48#8 State.classSet) s

/-! ## COLUMN-SET (05 R100) -/

/-- HA decides a COLUMN-SET (05 R100). -/
def State.columnSet (s : State) (body : List Byte) : State :=
  match columnSetReq body with
  | none => s.answer 0x49#8 .badField []
  | some (n, budget) =>
    match columnNumber n with
    | none => s.answer 0x49#8 .badField []
    | some c =>
      if budget < 3 ∨ 24 < budget then s.answer 0x49#8 .badField []
      else
        (s.setColumn c { s.column c with pendingBudget := some budget }).answer 0x49#8 .ok
          (u8 (s.column c).budget ++ u8 budget)

/-- COLUMN_SET (05 R100). -/
def execColumnSet (s : State) : Host.Outcome State Fault Refusal :=
  event (fun s => s.takeRequest 0x49#8 State.columnSet) s

/-! ## Cold time (05 R112 to R114) -/

/-- A held meal gathers 10 cold seconds; above the allowance of its class, COLD is brought (05 R112, R114). -/
def State.addCold (s : State) (l : LockerId) : State :=
  match (s.locker l).state.meal with
  | none => s
  | some (i, m) =>
    let more : Meal := { m with cold := m.cold + 10 }
    let s1 := s.enterLocker l ((s.locker l).state.withMeal more)
    match s.entry i with
    | none => s1
    | some r => if (s.classOf r).coldAllowance < more.cold then s1.bringTimed i .cold else s1

/-- A blind period of column `c`, not counted while it is settling (05 R111, R113). -/
def State.blindPeriod (s : State) (c : Col) : State :=
  if (s.column c).state.isSettling then s
  else allPos.foldl (fun s p => s.addCold (lockerAt c p)) s

/-! ## The heat period (05 R101 to R106) -/

/-- The demand of a locker (05 R102, Table 5-4). -/
def State.demandOf (s : State) (l : LockerId) : Nat :=
  let lk := s.locker l
  match lk.state with
  | .holding i _ =>
    match s.entry i with
    | none => 0
    | some r =>
      let k := s.classOf r
      match lk.lastTemp with
      | none => k.units
      | some t => if t < k.target then k.units else 0
  | .loading i _ _ =>
    match s.entry i with
    | none => 0
    | some r => (s.classOf r).units
  | .purging _ => 3
  | .purgeWait => if s.startOutstanding l then 3 else 0
  | .absent | .purgeRest _ | .empty | .releasing _ _ | .opened _ _ _ => 0
  | .spoiled _ | .clearing _ _ _ | .blocked _ _ => 0

/-- The demand of every locker of column `c` is written, records in ABSENT left as they stand (05 R102). -/
def State.collectDemands (s : State) (c : Col) : State :=
  allPos.foldl (fun s p =>
    let l := lockerAt c p
    if (s.locker l).state = .absent then s
    else s.setLocker l { s.locker l with demand := s.demandOf l }) s

/-- Units left, units granted, and the last position the round robin granted (05 R103). -/
structure Share where
  left : Nat
  granted : Bank Nat 8
  last : Option Pos
deriving DecidableEq, Repr

/-- A position is granted its whole demand, if it fits (05 R103). -/
def Share.grant (h : Share) (p : Pos) (n : Nat) : Share :=
  if n ≤ h.left then { h with left := h.left - n, granted := h.granted.set p n } else h

/-- Step 1: purges, in position order (05 R103). -/
def State.grantPurges (s : State) (c : Col) (h : Share) : Share :=
  allPos.foldl (fun h p =>
    let l := lockerAt c p
    if (s.locker l).state.isPurging || ((s.locker l).state == .purgeWait && s.startOutstanding l) then
      h.grant p 3
    else h) h

/-- HOLDING and LOADING lockers with a demand (05 R103 steps 2 and 3). -/
def State.mealDemand (s : State) (l : LockerId) : Bool :=
  match (s.locker l).state with
  | .holding _ _ => decide (0 < (s.locker l).demand)
  | .loading _ _ _ => decide (0 < (s.locker l).demand)
  | _ => false

/-- Step 2: starved lockers, in position order (05 R103). -/
def State.grantStarved (s : State) (c : Col) (h : Share) : Share :=
  allPos.foldl (fun h p =>
    let l := lockerAt c p
    if s.mealDemand l && (s.locker l).refusals == 6 then h.grant p (s.locker l).demand else h) h

/-- Positions in circular order from the one after the pointer to the pointer itself (05 R103). -/
def circleFrom (pointer : Pos) : List Pos := (List.finRange 8).map fun k => pointer + 1 + k

/-- Step 3: the round robin (05 R103). -/
def State.grantRound (s : State) (c : Col) (h : Share) : Share :=
  (circleFrom (s.column c).pointer).foldl (fun h p =>
    let l := lockerAt c p
    if s.mealDemand l && h.granted.get p == 0 && decide ((s.locker l).demand ≤ h.left) then
      { h.grant p (s.locker l).demand with last := some p }
    else h) h

/-- Step 4 for one position: a PURGE-WAIT locker without a PURGE-START outstanding is granted 3 units and its
PURGE-START is queued; without a free entry the grant is withdrawn (05 R103, R106). -/
def State.grantStart (s : State) (c : Col) (h : Share) (p : Pos) : State × Share :=
  let l := lockerAt c p
  if (s.locker l).state == .purgeWait && !s.startOutstanding l && decide (3 ≤ h.left) && s.hasRoom then
    (s.enqueue (purgeOp 0x06#8 l), h.grant p 3)
  else (s, h)

/-- Step 4: purge starts, lowest position first, in a workable column (05 R103, R106). -/
def State.grantStarts (s : State) (c : Col) (h : Share) : State × Share :=
  if s.workable c then
    allPos.foldl (fun (x : State × Share) p => x.1.grantStart c x.2 p) (s, h)
  else (s, h)

/-- Refusals after the grants are recorded (05 R104). -/
def State.countRefusals (s : State) (c : Col) (granted : Bank Nat 8) : State :=
  allPos.foldl (fun s p =>
    let l := lockerAt c p
    let lk := s.locker l
    let n := if lk.demand = 0 ∨ 0 < granted.get p then 0 else min 6 (lk.refusals + 1)
    s.setLocker l { lk with refusals := n }) s

/-- A HEAT-SET for column `c` that has not started its exchange (05 R105, 09 R171). -/
def Op.isWaitingHeat (op : Op) (c : Col) : Bool :=
  op.origin == .heat && op.dest == .column c && !op.inFlight

/-- The grants are sent: into a waiting HEAT-SET, or as a new one; a period without its own HEAT-SET is blind
(05 R105, R113). -/
def State.sendHeat (s : State) (c : Col) (granted : Bank Nat 8) : State :=
  if s.reachable c then
    if s.ops.any fun op => op.isWaitingHeat c then
      State.blindPeriod
        { s with
          ops := s.ops.map fun op =>
            if op.isWaitingHeat c then { op with body := granted.cells.flatMap u8 } else op } c
    else if s.hasRoom then s.enqueue (heatOp c granted)
    else s.blindPeriod c
  else s.blindPeriod c

/-- The grants of a heat period: the four steps from the column's budget (05 R103). -/
def State.grantUnits (s : State) (c : Col) : State × Share :=
  let h0 : Share := ⟨(s.column c).budget, .fill 8 0, none⟩
  s.grantStarts c (s.grantRound c (s.grantStarved c (s.grantPurges c h0)))

/-- The pending budget is taken into use (05 R102). -/
def State.takeBudget (s : State) (c : Col) : State :=
  let col := s.column c
  s.setColumn c { col with budget := col.pendingBudget.getD col.budget, pendingBudget := none }

/-- The grants and the pointer are recorded (05 R103). -/
def State.recordGrants (s : State) (c : Col) (h : Share) : State :=
  let col := s.column c
  s.setColumn c { col with granted := h.granted, pointer := h.last.getD col.pointer }

/-- A column's heat timer expires (05 R101 to R106). -/
def State.heatExpiry (s : State) (c : Col) : State :=
  match (s.column c).heatNext with
  | none => s
  | some t =>
    let s0 := s.reach t
    let s1 := s0.setColumn c { s0.column c with heatNext := some (t + heatPeriod) }
    let (s2, h) := ((s1.takeBudget c).collectDemands c).grantUnits c
    ((s2.recordGrants c h).countRefusals c h.granted).sendHeat c h.granted

/-- HEAT_PERIOD_EXPIRY (05 R102). -/
def execHeatPeriodExpiry (column : Col) (s : State) : Host.Outcome State Fault Refusal :=
  event (fun s => s.heatExpiry column) s

/-! ## Readings (05 R107 to R112) -/

/-- The overheat limit of a locker (05 R110, Table 5-5). -/
def State.overheatLimit (s : State) (l : LockerId) : Int :=
  match (s.locker l).state.slot with
  | none => 1100
  | some i =>
    match s.entry i with
    | none => 1100
    | some r => (s.classOf r).target + 200

/-- The state is BLOCKED. -/
def LockerState.isBlocked : LockerState → Bool
  | .blocked _ _ => true
  | .absent | .purgeWait | .purging _ | .purgeRest _ | .empty | .loading _ _ _ | .holding _ _ => false
  | .releasing _ _ | .opened _ _ _ | .spoiled _ | .clearing _ _ _ => false

/-- A good reading below the minimum of a held meal counts cold time (05 R112). -/
def State.judgeCold (s : State) (l : LockerId) (t : Int) : State :=
  match (s.locker l).state.meal with
  | none => s
  | some (i, _) =>
    match s.entry i with
    | none => s
    | some r => if t < (s.classOf r).minimum then s.addCold l else s

/-- A good reading outside settling is tested for overheat and for cold time (05 R108, R110, R112). -/
def State.judgeReading (s : State) (l : LockerId) (t : Int) : State :=
  if (s.locker l).state.isBlocked then s
  else if s.overheatLimit l < t then s.takeFault l .overheat
  else s.judgeCold l t

/-- Last temperature is written (02 R35). -/
def State.setTemp (s : State) (l : LockerId) (t : Int) : State :=
  s.setLocker l { s.locker l with lastTemp := some t }

/-- HA takes one reading (05 R108, R109, R111). -/
def State.takeReading (s : State) (c : Col) (l : LockerId) (reading : Option Int) : State :=
  if (s.locker l).state = .absent then s
  else
    match reading with
    | none => if (s.column c).state.isSettling then s else s.takeFault l .sensor
    | some t =>
      let s1 := s.setTemp l t
      if (s.column c).state.isSettling then s1 else s1.judgeReading l t

/-- The outcome of a HEAT-SET reaches HA (05 R107). -/
def State.heatOutcome (s : State) (c : Col) (out : Outcome) : State :=
  match out with
  | .done _ _ body => allPos.foldl (fun s p => s.takeReading c (lockerAt c p) (readingOf body p)) s
  | .unmet => s.blindPeriod c
  | .failed => s.blindPeriod c
  | .silent => s.blindPeriod c
  | .cancelled => s.blindPeriod c

end Sys2Proof.Machine
end

