-- ==== Sys2Proof/Machine/Interpreter.lean ====
section
/-! DEFINITION. The Management Interpreter (chapter 11): modes, the Filter Table, pass-through, statistics,
RESTART, unknown kinds; and the delivery of an operation's outcome to its origin (08 R159). -/

namespace Sys2Proof.Machine

open Config

/-! ## Operating modes (11 R204, R205) -/

/-- The mode changes, with its MODE notice and LINK_LED (11 R204). -/
def State.changeMode (s : State) (m : OpMode) : State :=
  State.queueNotice { s with mode := m, ledLow := m == .run } (.mode m)

/-- STARTING ends when both marks are set (11 R204). -/
def State.startIfReady (s : State) : State :=
  if s.mode == .starting && s.walkEnded && s.clockMark then s.changeMode .run else s

/-- CS reports that the initial walk has ended (11 R204, 10 R190). -/
def State.noteWalkEnded (s : State) : State := State.startIfReady { s with walkEnded := true }

/-- RT reports that court time is now set (11 R204, 01 R9). -/
def State.noteClockSet (s : State) : State := State.startIfReady { s with clockMark := true }

/-- MI decides a MODE-SET (11 R205). -/
def State.modeSet (s : State) (body : List Byte) : State :=
  match (numberReq 1 body).bind opModeOf with
  | none => s.answer 0x4E#8 .badField []
  | some .starting => s.answer 0x4E#8 .badField []
  | some m =>
    if s.mode = .starting then s.answer 0x4E#8 .notNow []
    else if s.mode = m then s.answer 0x4E#8 .ok (u8 m.code)
    else (s.changeMode m).answer 0x4E#8 .ok (u8 m.code)

/-- MODE_SET (11 R205). -/
def execModeSet (s : State) : Host.Outcome State Fault Refusal :=
  event (fun s => s.takeRequest 0x4E#8 State.modeSet) s

/-! ## Statistics (11 R206) -/

/-- The eight counters in order (11 Table 11-7). -/
def Counters.bytes (k : Counters) : List Byte :=
  beBytes 4 k.serverDiscarded ++ beBytes 4 k.columnDiscarded ++ beBytes 4 k.silent ++ beBytes 4 k.matched
    ++ beBytes 4 k.wrong ++ beBytes 4 k.releasesFailed ++ beBytes 4 k.expired ++ beBytes 4 k.noticesLost

/-- MI answers a STATS-READ (11 R206). -/
def State.statsRead (s : State) (body : List Byte) : State :=
  match (numberReq 1 body).bind markOf with
  | none => s.answer 0x4F#8 .badField []
  | some clear =>
    State.answer { s with counters := if clear then .zero else s.counters } 0x4F#8 .ok
      (s.counters.bytes ++ u8 s.mode.code ++ s.courtBytes)

/-- STATS_READ (11 R206). -/
def execStatsRead (s : State) : Host.Outcome State Fault Refusal :=
  event (fun s => s.takeRequest 0x4F#8 State.statsRead) s

/-! ## The Filter Table (11 R200) -/

/-- MI decides a FILTER-SET (11 R200). -/
def State.filterSet (s : State) (body : List Byte) : State :=
  match filterSetReq body with
  | none => s.answer 0x4D#8 .badField []
  | some q =>
    match filterIndex q.kind, filterActionOf q.action, markOf q.multi with
    | some k, some action, some multi =>
      if multi && q.kind == 0x09#8 then s.answer 0x4D#8 .badField []
      else
        State.answer { s with filter := s.filter.set k ⟨action, multi⟩ } 0x4D#8 .ok
          (u8 action.code ++ [markByte multi])
    | _, _, _ => s.answer 0x4D#8 .badField []

/-- FILTER_SET (11 R200). -/
def execFilterSet (s : State) : Host.Outcome State Fault Refusal :=
  event (fun s => s.takeRequest 0x4D#8 State.filterSet) s

/-- The Filter Table entry of a kind; REFUSE when it has none (11 R200, R202). -/
def State.filterOf (s : State) (kind : Byte) : FilterEntry :=
  match filterIndex kind with
  | none => ⟨.refuse, false⟩
  | some k => s.filter.get k

/-! ## Pass-through (11 R201 to R203) -/

/-- The reply MI composes to a pass-through frame (11 R202, R203; 07 R131). -/
def State.passAnswer (s : State) (ref : InboxRef) (status : Status) (data : List Byte) : State :=
  s.placeReply ⟨replyKind ref.kind, ref.dest, status.code :: data, false⟩

/-- The column of a pass-through frame keeps it from being admitted (11 Table 11-4 rows 2 and 3). -/
def State.passUnreachable (s : State) (dest : Dest) (action : FilterAction) : Bool :=
  match dest with
  | .all => false
  | .column c =>
    match (s.column c).state with
    | .absent => true
    | .lost => true
    | .service => action != .passInService
    | .unseen | .settling _ | .active => false

/-- MI judges a pass-through frame by the first row of Table 11-4 that fits (11 R202). -/
def State.passJudge (s : State) (dest : Dest) (kind : Byte) (body : List Byte) : State :=
  let ref : InboxRef := ⟨kind, dest.station⟩
  let e := s.filterOf kind
  if e.action = .refuse then s.passAnswer ref .refused []
  else if s.passUnreachable dest e.action then s.passAnswer ref .unreachable []
  else if 2 ≤ s.passOutstanding then s.passAnswer ref .busy []
  else if !s.hasRoom then s.passAnswer ref .busy []
  else if e.multi && (countedItems body).isNone then s.passAnswer ref .badField []
  else
    match dest with
    | .all => s.enqueue (passOp .all kind .once body)
    | .column c =>
      s.enqueue (passOp (.column c) kind (if e.multi then .counted 0 else .once) body)

/-- The destination of a pass-through frame: station 1 to 8 or 15 (07 R131). -/
def passDest (a : Station) : Option Dest :=
  if a = broadcastStation then some .all else (columnOf a).map .column

/-- MI takes a pass-through frame from the head of the inbox (11 R197, R202). -/
def State.takePass (s : State) : State :=
  match s.inbox with
  | [] => s
  | f :: rest =>
    match passDest f.dest with
    | none => s
    | some dest => if s.canTake then State.passJudge { s with inbox := rest } dest f.kind f.body else s

/-- PASS_THROUGH (11 R202). -/
def execPassThrough (s : State) : Host.Outcome State Fault Refusal := event State.takePass s

/-- The count done that a COUNTED operation's reply carries (11 R203). -/
def Mode.countData : Mode → List Byte
  | .counted n => u8 n
  | .once | .untilMet _ _ | .untilEmpty _ | .walk _ => []

/-- The outcome of a PASS operation reaches MI (11 R203, Table 11-5). -/
def State.passOutcome (s : State) (op : Op) (out : Outcome) : State :=
  match op.inboxRef with
  | none => s
  | some ref =>
    match out with
    | .done _ kind body =>
      match op.dest with
      | .all => s.passAnswer ref .ok []
      | .column _ => s.placeReply ⟨kind, ref.dest, forwardBody body, false⟩
    | .unmet => s.passAnswer ref .failed op.mode.countData
    | .failed => s.passAnswer ref .failed op.mode.countData
    | .silent => s.passAnswer ref .noReply op.mode.countData
    | .cancelled => s.passAnswer ref .unreachable op.mode.countData

/-! ## Unknown kinds and RESTART (11 R197, R207) -/

/-- MI takes a station-0 frame whose kind names no request (11 R197). -/
def State.takeUnknown (s : State) : State :=
  match s.inbox with
  | [] => s
  | f :: rest =>
    if f.dest = 0#4 ∧ !isManagement f.kind ∧ s.canTake then
      State.answer { s with inbox := rest } f.kind .unknownKind []
    else s

/-- UNKNOWN_KIND (11 R197). -/
def execUnknownKind (s : State) : Host.Outcome State Fault Refusal := event State.takeUnknown s

/-- MI decides a RESTART (11 R207): the reply with the walk abandoned mark, the walk's end, and the RESTART
pending. -/
def State.restartRequest (s : State) (body : List Byte) : State :=
  if body.isEmpty then
    State.placeReply { s with shift := none, restartPending := true }
      ⟨replyKind 0x50#8, 0#4, [Status.ok.code, markByte s.shift.isSome], true⟩
  else s.answer 0x50#8 .badField []

/-- RESTART (11 R207). -/
def execRestart (s : State) : Host.Outcome State Fault Refusal :=
  event (fun s => s.takeRequest 0x50#8 State.restartRequest) s

/-! ## Outcomes to their origins (08 R159) -/

/-- The outcome of an operation to a position of a column. -/
def State.deliverAt (s : State) (op : Op) (l : LockerId) (out : Outcome) : State :=
  match op.origin with
  | .collect => s.unlatchOutcome l .collect op.slot out
  | .load => s.unlatchOutcome l .load op.slot out
  | .clear => s.unlatchOutcome l .clear op.slot out
  | .purge => if op.kind = 0x06#8 then s.purgeStartOutcome l out else s.purgeAbortOutcome l out
  | .heat | .poll | .fetch | .roll | .panel | .pass => s

/-- The outcome of an operation is delivered to its origin (08 R159; 03 R55, 04 R75, 10 R186: CE, LE and CS
change no state for a PANEL-SHOW or a FETCH). -/
def State.deliver (s : State) (op : Op) (out : Outcome) : State :=
  match op.origin with
  | .pass => s.passOutcome op out
  | .heat =>
    match op.dest with
    | .column c => s.heatOutcome c out
    | .all => s
  | .collect | .load | .clear | .purge =>
    match op.dest, op.position with
    | .column c, some p => s.deliverAt op (lockerAt c p) out
    | _, _ => s
  | .poll | .fetch | .roll | .panel => s

end Sys2Proof.Machine
end

