-- ==== Sys2Proof/Machine/Supervision.lean ====
section
/-! DEFINITION. The Column Supervisor (chapter 10): column states, silence, walks, reconciliation. -/

namespace Sys2Proof.Machine

open Config

/-! ## Column states (10 R179 to R185) -/

/-- The column changes state; the heat timer stops on entering ABSENT, with every grant set to 0, and starts
on leaving it (05 R101). -/
def State.changeState (s : State) (c : Col) (st : ColState) : State :=
  let col := s.column c
  if st = .absent then
    s.setColumn c { col with state := st, heatNext := none, granted := .fill 8 0 }
  else if col.state = .absent then
    s.setColumn c { col with state := st, heatNext := some (s.now + heatPeriod) }
  else s.setColumn c { col with state := st }

/-- COLUMN-STATE with the state the column now holds (10 R179). -/
def State.announce (s : State) (c : Col) : State := s.queueNotice (.columnState c (s.column c).state)

/-- The mode is WALK. -/
def Mode.isWalk : Mode → Bool
  | .walk _ => true
  | .once | .untilMet _ _ | .untilEmpty _ | .counted _ => false

/-- An operation that leaving reach cancels: to the column, queued, and no walk (09 R176). -/
def Op.cancellable (op : Op) (c : Col) : Bool :=
  op.dest == .column c && !op.inFlight && !op.mode.isWalk

/-- One cancellation: CANCELLED is delivered and the operation removed (09 R176). Its entry is free from then
on, within the event too: DESIGN CHOICE (log 31). -/
def State.cancelOne (s : State) (op : Op) : State := (s.deliver op .cancelled).removeOp op.tag

/-- The column leaves reach: its queued operations are cancelled in arrival order (09 R176), and an exchange
in flight to it is marked (08 R159). -/
def State.leaveReach (s : State) (c : Col) : State :=
  let s1 : State :=
    { s with
      exchange := s.exchange.map fun x => if x.dest = .column c then { x with leftReach := true } else x }
  (s.ops.filter fun op => op.cancellable c).foldl State.cancelOne s1

/-- The column enters LOST with silence count 3 (10 R182, R188). -/
def State.enterLost (s : State) (c : Col) : State :=
  (((s.setColumn c { s.column c with silence := 3 }).changeState c .lost).announce c).leaveReach c

/-- The column enters SERVICE (10 R183). -/
def State.enterService (s : State) (c : Col) : State :=
  ((s.changeState c .service).announce c).leaveReach c

/-- Settle until falls due and the column becomes ACTIVE (10 R184). -/
def State.settleDue (s : State) (c : Col) : State :=
  match (s.column c).state, s.court with
  | .settling (some u), some t => if u ≤ t then (s.changeState c .active).announce c else s
  | _, _ => s

/-- The SETTLING state entered now (10 R184 step 1). -/
def State.settlingNow (s : State) : ColState := .settling (s.court.map fun t => satAdd t settleSeconds)

/-- A silence of the column: a missing slot answer or a SILENT exchange (10 R181, R182). -/
def State.silenceOf (s : State) (c : Col) : State :=
  let col := s.column c
  match col.state with
  | .settling _ | .active | .service =>
    if 3 ≤ col.silence + 1 then s.enterLost c else s.setColumn c { col with silence := col.silence + 1 }
  | .unseen | .absent | .lost => s

/-- An answer of the column: the silence count becomes 0 in every state (10 R182). -/
def State.answerOf (s : State) (c : Col) : State := s.setColumn c { s.column c with silence := 0 }

/-! ## Walks called for (10 R186, R187) -/

/-- CS queues a FETCH for a workable column that shows ATTN, unless one is outstanding (10 R186). -/
def State.offerFetch (s : State) (c : Col) : State :=
  if s.workable c && (s.column c).attention && !s.fetchOutstanding c then s.enqueue (fetchOp c) else s

/-- A walk operation whose list holds the column and whose cursor has not reached it (10 R187). -/
def Op.walkAhead (op : Op) (c : Col) : Bool :=
  match op.mode with
  | .walk w => w.ahead.contains c
  | .once | .untilMet _ _ | .untilEmpty _ | .counted _ => false

/-- A walk operation that will still end a part for the column. -/
def Op.walkStill (op : Op) (c : Col) : Bool :=
  match op.mode with
  | .walk w => w.here == c || w.ahead.contains c
  | .once | .untilMet _ _ | .untilEmpty _ | .counted _ => false

/-- A walk of the column is called for by a slot answer (10 R187). A call that finds room queues its own walk, one
owed already staying owed (DEDUCED, log 21); two calls that find the queue full owe one walk: DESIGN CHOICE
(log 39). -/
def State.callWalk (s : State) (c : Col) : State :=
  let s1 := s.setColumn c { s.column c with walkPending := true }
  if s1.ops.any fun op => op.walkAhead c then s1
  else if s1.hasRoom then s1.enqueue (walkOp c [] .returning)
  else s1.setColumn c { s1.column c with walkOwed := true }

/-- The column returns to use by a slot answer (10 R184). -/
def State.returnBySlot (s : State) (c : Col) : State :=
  (((s.changeState c s.settlingNow).callWalk c).announce c).settleDue c

/-- CS takes a column's slot answer (10 R181). -/
def State.takeSlot (s : State) (c : Col) (a : Option SlotAnswer) : State :=
  match a with
  | none => s.silenceOf c
  | some a =>
    let s1 := s.setColumn c { s.column c with silence := 0, attention := a.attn }
    match (s.column c).state with
    | .service => if a.svc then s1 else s1.returnBySlot c
    | .absent => if a.svc then s1.enterService c else s1.returnBySlot c
    | .lost => if a.svc then s1.enterService c else s1.returnBySlot c
    | .unseen => if a.svc then s1.enterService c else s1
    | .settling _ => if a.svc then s1.enterService c else s1.offerFetch c
    | .active => if a.svc then s1.enterService c else s1.offerFetch c

/-! ## Reconciliation (10 R192, R193; 06 R127) -/

/-- Rating, occupied and last temperature from a descriptor (10 R192). -/
def State.writeDescriptor (s : State) (l : LockerId) (d : Descriptor) : State :=
  let lk := s.locker l
  s.setLocker l
    { lk with
      rating := d.rating
      occupied := if d.occupied then .yes else .no
      lastTemp := d.temp.or lk.lastTemp }

/-- The move of a locker whose position is present (10 Table 10-4). -/
def State.movePresent (s : State) (l : LockerId) (occ : Bool) : State :=
  match (s.locker l).state with
  | .absent => if occ then s.enterLocker l (.spoiled none) else s.enterLocker l .purgeWait
  | .empty => if occ then s.enterLocker l (.spoiled none) else s
  | .purgeWait => if occ then s.enterLocker l (.spoiled none) else s
  | .purging _ => s.startRest l
  | .purgeRest _ => s
  | .loading _ _ _ => if occ then s.loadComplete l else s.loadUndone l .empty
  | .holding i _ => if occ then s else s.expire i .missing .purgeWait
  | .releasing _ _ => if occ then s.returnMeal l .returned else s.collectMeal l
  | .opened _ _ _ => if occ then s.returnMeal l .returned else s.collectMeal l
  | .spoiled _ => if occ then s.respoil l else s.discard l
  | .clearing _ _ _ => if occ then s.respoil l else s.discard l
  | .blocked _ _ => s

/-- The latch of the side in use reads open in a descriptor (10 R193). -/
def Descriptor.latchOpen (d : Descriptor) (side : Option Side) : Bool :=
  match side with
  | some .front => d.frontOpen
  | some .back => d.backOpen
  | none => false

/-- A locker with a door operation outstanding keeps its state; an open latch confirms it (10 R193). -/
def State.keepForDoor (s : State) (l : LockerId) (d : Descriptor) : State :=
  if d.latchOpen (s.locker l).state.sideInUse then s.confirmByEvent l else s

/-- A PURGE-WAIT or EMPTY locker whose purge a walk found running comes to rest (06 R127 third part). -/
def State.restAfterWalk (s : State) (l : LockerId) : State :=
  match (s.locker l).state with
  | .purgeWait => s.startRest l
  | .empty => s.startRest l
  | _ => s

/-- R127's moves to rest reach the locker: it has no door operation outstanding, or has one and the free value of
log 17 puts 06 R127 before 10 R193. -/
def State.restReaches (s : State) (l : LockerId) : Bool := !s.doorBusy l || restOverDoor s.now l.val

/-- The locker keeps its state for a door operation outstanding (10 R193); a PURGING one does so where R127's move to
rest does not reach it (06 R127 first part, log 17). -/
def State.staysForDoor (s : State) (l : LockerId) : Bool :=
  s.doorBusy l && !((s.locker l).state.isPurging && s.restReaches l)

/-- A purge found running on a locker that is not PURGING: an abort is queued, and PURGE-WAIT or EMPTY comes to
rest where R127's move to rest reaches it (06 R127 third part). -/
def State.purgeFound (s : State) (l : LockerId) (rest : Bool) : State :=
  if (s.locker l).state.isPurging then s
  else
    let s1 := s.queueAbort l true
    if rest then s1.restAfterWalk l else s1

/-- A position read as present is reconciled (10 R192, R193; 06 R127). For a locker with a door operation outstanding
that R127 would bring to rest the two rules disagree, and the free value of log 17 says which one the part follows.
A locker that stays ABSENT for a door operation outstanding has the descriptor's fields written all the same, last
temperature among them, which Table 2-1 gives no ABSENT record: DEDUCED (log 35). -/
def State.reconcilePresent (s : State) (l : LockerId) (d : Descriptor) : State :=
  let s1 := s.writeDescriptor l d
  let s2 := if s.staysForDoor l then s1.keepForDoor l d else s1.movePresent l d.occupied
  if d.purgeRunning then s2.purgeFound l (s.restReaches l) else s2

/-- A position ruled out is reconciled (10 Table 10-4, Absent). -/
def State.reconcileAbsent (s : State) (l : LockerId) : State :=
  match (s.locker l).state with
  | .loading _ _ _ => s.loadUndone l .absent
  | .holding i _ => (s.expire i .missing .absent).enterLocker l .absent
  | .releasing i _ => (s.expire i .missing .absent).enterLocker l .absent
  | .opened i _ _ => (s.expire i .missing .absent).enterLocker l .absent
  | .absent | .purgeWait | .purging _ | .purgeRest _ | .empty => s.enterLocker l .absent
  | .spoiled _ | .clearing _ _ _ | .blocked _ _ => s.enterLocker l .absent

/-- Every position of a column from `p` on is reconciled as absent, lowest first. -/
def State.absentFrom (s : State) (c : Col) (p : Pos) : State :=
  (allPos.filter fun q => decide (p ≤ q)).foldl (fun s q => s.reconcileAbsent (lockerAt c q)) s

/-! ## Walk steps (10 R188 to R190, 08 R158) -/

/-- How a column's part of a walk ends (10 R188). -/
inductive PartEnd where
  | reading | refused | silent
deriving DecidableEq, Repr

/-- The state at the end of a column's part (10 R188, Table 10-3). A column that is LOST already and whose
silence count an answer has set to 0 keeps that count at a silent end: DESIGN CHOICE (log 33). -/
def State.partState (s : State) (c : Col) (how : PartEnd) : State :=
  match how, (s.column c).state with
  | .reading, .unseen => (s.changeState c .active).announce c
  | .reading, .absent => ((s.changeState c s.settlingNow).announce c).settleDue c
  | .reading, .lost => ((s.changeState c s.settlingNow).announce c).settleDue c
  | .reading, .settling _ => s
  | .reading, .active => s
  | .reading, .service => s
  | .refused, .service => s
  | .refused, _ => s.enterService c
  | .silent, .unseen => (((s.changeState c .absent).announce c).leaveReach c).absentFrom c 0
  | .silent, .absent => s
  | .silent, .lost => s
  | .silent, _ => s.enterLost c

/-- A column's part of the walk in entry `tag` ends: its state, its walk pending, and a FETCH if it shows
attention (10 R187, R189). A part that ends refused clears walk pending like any other, an UNSEEN column's too:
R183's 'keeps walk pending' is read of the entry into SERVICE (DEDUCED, log 32). -/
def State.endPart (s : State) (tag : Nat) (c : Col) (how : PartEnd) : State :=
  let s1 := s.partState c how
  let later := (s1.ops.any fun op => op.tag != tag && op.walkStill c) || (s1.column c).walkOwed
  let s2 := if later then s1 else s1.setColumn c { s1.column c with walkPending := false }
  s2.offerFetch c

/-- The walk at its next column, if its list has one (08 R158). -/
def Walk.nextColumn (w : Walk) : Option Walk :=
  match w.ahead with
  | [] => none
  | k :: ks => some { w with done := w.done ++ [w.here], here := k, ahead := ks, pos := 0 }

/-- The walk at its next position (08 R158). -/
def Walk.nextPosition (w : Walk) : Option Walk :=
  if h : w.pos.val + 1 < 8 then some { w with pos := ⟨w.pos.val + 1, h⟩ } else w.nextColumn

/-- Columns then SETTLING, ACTIVE or SERVICE (10 R190). -/
def State.columnsPresent (s : State) : Nat :=
  s.columns.count fun col => col.state.reachable || col.state == .service

/-- Locker records then outside ABSENT (10 R190). -/
def State.lockersPresent (s : State) : Nat := s.lockers.count fun lk => lk.state != .absent

/-- A walk passes its last column (10 R190). Of the two notices that the end of the initial walk may queue,
INVENTORY-DONE goes before MODE(RUN): DESIGN CHOICE (log 34). -/
def State.walkDone (s : State) (tag : Nat) (cause : WalkCause) : State :=
  let tell (s : State) := s.queueNotice (.inventoryDone s.columnsPresent s.lockersPresent)
  let s1 :=
    match cause with
    | .initial => (tell s).noteWalkEnded
    | .rollCall => tell s
    | .returning => s
  s1.removeOp tag

/-- The walk in entry `tag` goes on at its moved cursor, or ends (08 R158). -/
def State.moveWalk (s : State) (tag : Nat) (cause : WalkCause) (next : Option Walk) : State :=
  match next with
  | none => s.walkDone tag cause
  | some w =>
    s.updateOp tag fun op =>
      { op with mode := .walk w, dest := .column w.here, position := some w.pos, inFlight := false }

/-- CS takes the result of one walk step: the flags and body of a good reply, or none for SILENT
(10 R188, 08 R158). -/
def State.walkStep (s : State) (tag : Nat) (w : Walk) (result : Option (Flags × List Byte)) : State :=
  let c := w.here
  match result with
  | none => (s.endPart tag c .silent).moveWalk tag w.cause w.nextColumn
  | some (f, body) =>
    if !f.taken then (s.endPart tag c .refused).moveWalk tag w.cause w.nextColumn
    else if !f.met then
      ((s.absentFrom c w.pos).endPart tag c .reading).moveWalk tag w.cause w.nextColumn
    else
      let s1 := s.reconcilePresent (lockerAt c w.pos) (descriptorOf body)
      if w.pos.val = 7 then (s1.endPart tag c .reading).moveWalk tag w.cause w.nextColumn
      else s1.moveWalk tag w.cause w.nextPosition

/-! ## ROLL-CALL and COLUMN-READ (10 R191, R194) -/

/-- Walk pending becomes YES for every column listed. -/
def State.markWalks (s : State) (cs : List Col) : State :=
  cs.foldl (fun s c => s.setColumn c { s.column c with walkPending := true }) s

/-- The columns a ROLL-CALL lists: 0 for the full wall (10 R191). -/
def rollList (n : Nat) : Option (Col × List Col) :=
  if n = 0 then some (0, [1, 2, 3, 4, 5, 6, 7]) else (columnNumber n).map fun c => (c, [])

/-- CS decides a ROLL-CALL (10 R191). -/
def State.rollCall (s : State) (body : List Byte) : State :=
  match (numberReq 1 body).bind rollList with
  | none => s.answer 0x4B#8 .badField []
  | some (first, others) =>
    if (s.ops.any fun op => op.mode.isWalk) || allCols.any fun c => (s.column c).walkOwed then
      s.answer 0x4B#8 .busy []
    else if !s.hasRoom then s.answer 0x4B#8 .busy []
    else
      ((s.enqueue (walkOp first others .rollCall)).markWalks (first :: others)).answer 0x4B#8 .accepted []

/-- ROLL_CALL (10 R191). -/
def execRollCall (s : State) : Host.Outcome State Fault Refusal :=
  event (fun s => s.takeRequest 0x4B#8 State.rollCall) s

/-- Settle until, if it holds a court time (10 R194). -/
def ColState.settleUntil : ColState → Option Nat
  | .settling u => u
  | .unseen | .absent | .active | .service | .lost => none

/-- The report of a column, 32 bytes after the status (10 R194). -/
def State.columnReport (s : State) (c : Col) : List Byte :=
  let col := s.column c
  let settle := col.state.settleUntil
  u8 (c.val + 1) ++ u8 col.state.code ++ u8 col.silence ++ [markByte col.walkPending]
    ++ [markByte col.attention] ++ u8 col.budget ++ u8 (col.pointer.val + 1)
    ++ col.granted.cells.flatMap u8 ++ u8 col.wrong
    ++ beBytes 2 (presenceMask [settle.isSome, col.pendingBudget.isSome, col.lockout.isSome])
    ++ optBytes 4 settle ++ optBytes 1 col.pendingBudget ++ optBytes 4 col.lockout ++ s.courtBytes

/-- CS answers a COLUMN-READ (10 R194). -/
def State.columnRead (s : State) (body : List Byte) : State :=
  match (numberReq 1 body).bind columnNumber with
  | none => s.answer 0x4C#8 .badField []
  | some c => s.answer 0x4C#8 .ok (s.columnReport c)

/-- COLUMN_READ (10 R194). -/
def execColumnRead (s : State) : Host.Outcome State Fault Refusal :=
  event (fun s => s.takeRequest 0x4C#8 State.columnRead) s

/-- SETTLE_END (10 R184). -/
def execSettleEnd (column : Col) (s : State) : Host.Outcome State Fault Refusal :=
  event (fun s => s.settleDue column) s

/-! ## The poll timer (10 R180) -/

/-- A POLL is queued into entry 0, unless it holds one (10 R180, 09 R167). -/
def State.queuePoll (s : State) : State :=
  if s.pollOutstanding then s else { s with ops := s.ops ++ [pollOp s.now] }

/-- Each owed walk is queued, in column order, while there is a free entry (10 R187). -/
def State.queueOwed (s : State) : State :=
  allCols.foldl (fun s c =>
    if (s.column c).walkOwed && s.hasRoom then
      (s.setColumn c { s.column c with walkOwed := false }).enqueue (walkOp c [] .returning)
    else s) s

/-- The poll timer expires (10 R180). -/
def State.pollExpiry (s : State) : State :=
  let s1 := s.reach s.pollNext
  (State.queuePoll { s1 with pollNext := s.pollNext + pollPeriod }).queueOwed

/-- POLL_TIMER_EXPIRY (10 R180). -/
def execPollTimerExpiry (s : State) : Host.Outcome State Fault Refusal := event State.pollExpiry s

end Sys2Proof.Machine
end

