-- ==== Sys2Proof/Machine/Exchange.lean ====
section
/-! DEFINITION. The scheduler (chapter 9) and the Exchange Engine (chapter 8): grants, tries, replies,
repetition modes, broadcasts and the poll. -/

namespace Sys2Proof.Machine

open Config

/-! ## Eligibility and choice (09 R172 to R174) -/

/-- A quiet until that stands holds operations back until it has passed (08 R151). -/
def State.quietOf (s : State) (c : Col) : Time := (s.column c).quiet.getD 0

/-- The latest quiet until of all columns (09 Table 9-3, broadcast). -/
def State.quietOfAll (s : State) : Time := allCols.foldl (fun t c => max t (s.quietOf c)) 0

/-- The conditions of eligibility other than time (09 Table 9-3). -/
def State.admissible (s : State) (op : Op) : Bool :=
  match op.origin, op.mode, op.dest with
  | .poll, _, _ => true
  | _, .walk _, _ => true
  | _, _, .all => allCols.all fun c => !(s.column c).walkPending
  | _, _, .column c =>
    let col := s.column c
    !col.walkPending
      && (col.state.reachable
        || (col.state == .service && op.origin == .pass
          && (s.filterOf op.kind).action == .passInService))

/-- The moment from which an operation's conditions of time hold (09 Table 9-3). -/
def State.readyAt (s : State) (op : Op) : Time :=
  match op.origin, op.mode, op.dest with
  | .poll, _, _ => op.notBefore
  | _, .walk w, _ => max op.notBefore (s.quietOf w.here)
  | _, _, .all => max op.notBefore s.quietOfAll
  | _, _, .column c => max op.notBefore (s.quietOf c)

/-- The operation is eligible at moment `t` (09 R172). -/
def State.eligible (s : State) (t : Time) (op : Op) : Bool :=
  !op.inFlight && s.admissible op && decide (s.readyAt op ≤ t)

/-- The moment from which the port is free (08 R148, R160). -/
def State.portFreeAt (s : State) : Time :=
  match s.released with
  | none => 0
  | some t => t + turnaround

/-- The first moment, now or later, when the port is free and an operation is eligible (09 R174). -/
def State.firstMoment (s : State) : Option Time :=
  let ready := (s.ops.filter fun op => !op.inFlight && s.admissible op).map s.readyAt
  match s.exchange, ready with
  | some _, _ => none
  | none, [] => none
  | none, t :: ts => some (max (max s.now s.portFreeAt) (ts.foldl min t))

/-- The operation chosen among `ops` at moment `t` by class and age, with the streak count after it
(09 R173). -/
def State.chooseFrom (s : State) (ops : List Op) (t : Time) : Option (Op × Nat) :=
  let urgent := ops.find? fun op => s.eligible t op && op.cls == .urgent
  let routine := ops.find? fun op => s.eligible t op && op.cls == .routine
  match urgent, routine with
  | some u, some r => if 4 ≤ s.streak then some (r, 0) else some (u, s.streak + 1)
  | some u, none => some (u, 0)
  | none, some r => some (r, 0)
  | none, none => none

/-- The operation chosen from the whole queue (09 R173). -/
def State.choose (s : State) (t : Time) : Option (Op × Nat) := s.chooseFrom s.ops t

/-! ## Starting an exchange (08 R148) -/

/-- The body of the request an operation sends next: a walk names its position, a COUNTED operation puts its
next list item in place of the count (08 R157, R158). -/
def Op.requestBody (op : Op) : List Byte :=
  match op.mode with
  | .walk w => u8 (w.pos.val + 1)
  | .counted n =>
    match op.body with
    | [] => []
    | count :: rest => (rest[n]?.getD count) :: rest
  | .once => op.body
  | .untilMet _ _ => op.body
  | .untilEmpty _ => op.body

/-- The request's frame (07 R131, 08 R148). -/
def Op.request (op : Op) : Frame := ⟨op.dest.station, 0#4, op.kind, op.requestBody⟩

/-- The stage an exchange starts in. -/
def Op.firstStage (op : Op) : ExStage :=
  match op.dest, op.origin with
  | .column _, _ => .awaiting
  | .all, .poll => .slots
  | .all, _ => .broadcast

/-- The Exchange Engine starts an operation's exchange; a FETCH holds two entries (08 R148, 09 R169, R174). -/
def State.startExchange (s : State) (op : Op) : State :=
  let chars := op.request.chars
  let s1 := s.updateOp op.tag fun o => { o with inFlight := true }
  { s1 with
    exchange := some
      { tag := op.tag, dest := op.dest, kind := op.kind, request := chars, tryNo := 1
        requestEnd := s.now + lineTime chars.length, stage := op.firstStage
        leftReach := false, abandoned := false }
    columnRx := .hunting
    reserve := if op.origin = .fetch then 2 else s.reserve }

/-- The operations of the tags given are removed. -/
def State.removeOps (s : State) (tags : List Nat) : State :=
  { s with ops := s.ops.filter fun op => !tags.contains op.tag }

/-- The scheduler grants the port at the present moment to an operation of `left`. A FETCH that finds fewer
than 4 free entries ends PAUSED, and the scheduler chooses again from the rest, the streak count unchanged
(08 R156, 09 R173); the entries of the FETCHes `paused` are freed at the end of the event (09 R175). `fuel`
bounds the number of choices by the length of the queue. -/
def State.grant (fuel : Nat) (s : State) (left : List Op) (paused : List Nat) : State :=
  match fuel with
  | 0 => s.removeOps paused
  | n + 1 =>
    match s.chooseFrom left s.now with
    | none => s.removeOps paused
    | some (op, streak) =>
      if op.origin = .fetch ∧ s.freeEntries < 4 then
        State.grant n s (left.filter fun o => o.tag != op.tag) (op.tag :: paused)
      else (State.startExchange { s with streak := streak } op).removeOps paused

/-- The scheduler chooses at the first moment when the port is free and an operation is eligible
(09 R173, R174). -/
def State.portGrant (s : State) : State :=
  match s.firstMoment with
  | none => s
  | some t => State.grant s.ops.length (s.reach t) s.ops []

/-- PORT_GRANT (09 R173). -/
def execPortGrant (s : State) : Host.Outcome State Fault Refusal := event State.portGrant s

/-! ## Repetition modes (08 R154 to R159) -/

/-- The result of an exchange with one column (08 R150). -/
inductive Result where
  | good (flags : Flags) (kind : Byte) (body : List Byte)
  | silent
deriving DecidableEq, Repr

/-- An operation ends: its outcome is delivered, and it is removed (09 R175). -/
def State.endOp (s : State) (op : Op) (out : Outcome) : State := (s.deliver op out).removeOp op.tag

/-- An operation goes back to the queue in its place, or ends CANCELLED when its column has left reach
(08 R159, 09 R175). -/
def State.giveBack (s : State) (op : Op) (leftReach : Bool) : State :=
  if leftReach then s.endOp op .cancelled
  else s.updateOp op.tag fun _ => { op with inFlight := false }

/-- ONCE (08 R154). -/
def State.onceResult (s : State) (op : Op) (r : Result) : State :=
  match r with
  | .good f kind body => if f.taken then s.endOp op (.done f.met kind body) else s.endOp op .failed
  | .silent => s.endOp op .silent

/-- UNTIL-MET (08 R155). -/
def State.untilMetResult (s : State) (op : Op) (limit made : Nat) (leftReach : Bool) (r : Result) : State :=
  match r with
  | .silent => s.endOp op .silent
  | .good f kind body =>
    if !f.taken then s.endOp op .failed
    else if f.met then s.endOp op (.done true kind body)
    else if made + 1 = limit then s.endOp { op with mode := .untilMet limit (made + 1) } .unmet
    else
      s.giveBack
        { op with mode := .untilMet limit (made + 1), notBefore := s.now + attemptSpacing } leftReach

/-- An event returned by the FETCH of a column is handed to its block (07 R140, Table 7-6); a position
outside 1 to 8 is disregarded by LT and PC (02 R41, 06 R122). -/
def State.handEvent (s : State) (c : Col) (e : Event) : State :=
  let at_ (n : Nat) (act : LockerId → State) : State :=
    match positionNumber n with
    | none => s
    | some p => act (lockerAt c p)
  match e with
  | .code digits => s.codeEvent c digits
  | .backScan tag => s.backScan c tag
  | .backClear n => s.backClear c n
  | .doorOpened n side => at_ n fun l => s.doorOpened l side
  | .doorClosed n side occ => at_ n fun l => s.doorClosed l side occ
  | .relatched n side => at_ n fun l => s.relatched l side
  | .purgeDone n ok => at_ n fun l => s.purgeDone l ok
  | .sensorFault n => at_ n fun l => s.takeFault l .sensor
  | .foreign raw => s.queueNotice (.columnEvent c raw)

/-- A FETCH reply's event is handed on, unless it is malformed (07 R140). -/
def State.handRaw (s : State) (c : Col) (raw : List Byte) : State :=
  match eventOf raw with
  | none => s
  | some e => s.handEvent c e

/-- UNTIL-EMPTY (08 R156). -/
def State.untilEmptyResult (s : State) (op : Op) (c : Col) (n : Nat) (leftReach : Bool) (r : Result) :
    State :=
  match r with
  | .silent => s.endOp op .silent
  | .good f kind body =>
    if !f.taken then s.endOp op .failed
    else if !f.met then s.endOp op (.done false kind body)
    else
      let s1 := s.handRaw c (body.drop 1)
      if !f.more || n + 1 == 8 then s1.endOp op (.done true kind body)
      else s1.giveBack { op with mode := .untilEmpty (n + 1) } leftReach

/-- COUNTED (08 R157). -/
def State.countedResult (s : State) (op : Op) (n : Nat) (leftReach : Bool) (r : Result) : State :=
  match r with
  | .silent => s.endOp op .silent
  | .good f kind body =>
    if !f.taken then s.endOp op .failed
    else
      let op1 := { op with mode := .counted (n + 1) }
      if natAt op.body 0 1 ≤ n + 1 then s.endOp op1 (.done f.met kind body)
      else s.giveBack op1 leftReach

/-- The operation's repetition mode is applied to the result (08 section 8.3). -/
def State.applyMode (s : State) (op : Op) (c : Col) (leftReach : Bool) (r : Result) : State :=
  match op.mode with
  | .once => s.onceResult op r
  | .untilMet limit made => s.untilMetResult op limit made leftReach r
  | .untilEmpty n => s.untilEmptyResult op c n leftReach r
  | .counted n => s.countedResult op n leftReach r
  | .walk w =>
    match r with
    | .silent => s.walkStep op.tag w none
    | .good f _ body => s.walkStep op.tag w (some (f, body))

/-! ## The end of an exchange (08 R150, R151, R160) -/

/-- The quiet until of a column, from the present moment (08 R151). -/
def State.setQuiet (s : State) (c : Col) : State :=
  s.setColumn c { s.column c with quiet := some (s.now + columnSpacing) }

/-- The exchange leaves the line; the held entries of a FETCH are free to its own event (09 R169). -/
def State.clearLine (s : State) : State :=
  { s with exchange := none, released := some s.now, columnRx := .hunting, reserve := 0 }

/-- The result is reported for silence counting (08 R151, 10 R182). -/
def State.reportResult (s : State) (c : Col) (r : Result) : State :=
  match r with
  | .good _ _ _ => s.answerOf c
  | .silent => s.silenceOf c

/-- The exchange with column `c` ends: silence, quiet until, then the mode (08 R151). One that a RESTART has
abandoned ends with its quiet until alone (08 R160). -/
def State.endExchange (s : State) (x : Exchange) (c : Col) (r : Result) : State :=
  if x.abandoned then (s.clearLine).setQuiet c
  else
    let s1 := s.reportResult c r
    let left := (s1.exchange.map Exchange.leftReach).getD false
    let s2 := (s1.clearLine).setQuiet c
    match s2.opOf x.tag with
    | none => s2
    | some op => s2.applyMode op c left r

/-- A try ends without a reply: a retry is due, or after try 3 the exchange ends SILENT; an abandoned exchange
ends at once (08 R150, R160). -/
def State.endTry (s : State) (x : Exchange) (c : Col) : State :=
  if x.abandoned then (s.clearLine).setQuiet c
  else if x.tryNo < 3 then
    { s with exchange := some { x with stage := .retryFrom s.now }, columnRx := .hunting }
  else s.countSilent.endExchange x c .silent

/-- TRY_TIMEOUT: the reply window closes; the try ends unless a frame is being assembled (08 R150). -/
def State.tryTimeout (s : State) : State :=
  match s.exchange with
  | none => s
  | some x =>
    match x.dest, x.stage with
    | .column c, .awaiting =>
      let s1 := s.reach (x.requestEnd + replyWindow)
      if s1.columnRx.busy then { s1 with exchange := some { x with stage := .closing } }
      else s1.endTry x c
    | _, _ => s

/-- TRY_TIMEOUT (08 R150). -/
def execTryTimeout (s : State) : Host.Outcome State Fault Refusal := event State.tryTimeout s

/-- RETRY: the same request is sent again as the next try (08 R150). -/
def State.retryNow (s : State) : State :=
  match s.exchange with
  | none => s
  | some x =>
    match x.stage with
    | .retryFrom t =>
      let s1 := s.reach (t + turnaround)
      { s1 with
        exchange := some
          { x with tryNo := x.tryNo + 1, stage := .awaiting
                   requestEnd := s1.now + lineTime x.request.length }
        columnRx := .hunting }
    | .awaiting | .closing | .broadcast | .slots => s

/-- RETRY (08 R150). -/
def execRetry (s : State) : Host.Outcome State Fault Refusal := event State.retryNow s

/-! ## Characters on the column line (07 R135, R136; 08 R149) -/

/-- The frame is the reply the exchange awaits from column `c` (07 R135). -/
def Exchange.accepts (x : Exchange) (c : Col) (chars : List Byte) : Option (Flags × Frame) :=
  let f := frameOf chars
  match bodyFlags f.body with
  | none => none
  | some flags =>
    if crcGood chars ∧ f.dest = 0#4 ∧ f.src = stationOf c ∧ f.kind = replyKind x.kind
        ∧ minReply x.kind flags ≤ f.body.length then some (flags, f)
    else none

/-- The exchange awaits its reply. -/
def ExStage.listens : ExStage → Bool
  | .awaiting => true
  | .closing => true
  | .retryFrom _ => false
  | .broadcast => false
  | .slots => false

/-- A moment lies in the reply window of the present try (08 R149): the moment at which it opens does, the one at
which it closes does not: DESIGN CHOICE (log 37). -/
def Exchange.inWindow (x : Exchange) (t : Time) : Bool :=
  decide (x.requestEnd + turnaround ≤ t) && decide (t < x.requestEnd + replyWindow)

/-- The reply window of the present try has closed (08 R149). -/
def State.windowOver (s : State) (x : Exchange) : Bool := decide (x.requestEnd + replyWindow ≤ s.now)

/-- A corrupt frame is counted; it ends the try when the window has closed (07 R135, 08 R150). -/
def State.corruptFrame (s : State) (x : Exchange) (c : Col) : State :=
  let s1 := s.countColumnDiscard
  if x.stage == .closing || s1.windowOver x then s1.endTry x c else s1

/-- What the column-line receiver finds while the reply is awaited (07 R135). -/
def State.columnFound (s : State) (e : RxEvent) : State :=
  match s.exchange with
  | none => s
  | some x =>
    match x.dest with
    | .all => s
    | .column c =>
      if x.stage.listens then
        match e with
        | .discarded => s.corruptFrame x c
        | .complete chars =>
          match x.accepts c chars with
          | none => s.corruptFrame x c
          | some (flags, f) => s.endExchange x c (.good flags f.kind f.body)
      else s

/-- The column-line receiver attends to a character that begins at `t`: the reply of a column is awaited, and
a frame is being assembled or the reply window is open (07 R135, 08 R149). -/
def State.attends (s : State) (t : Time) : Bool :=
  match s.exchange with
  | none => false
  | some x =>
    match x.dest with
    | .all => false
    | .column _ => x.stage.listens && (s.columnRx.busy || x.inWindow t)

/-- The gap limit of the column line runs out on the frame being assembled, which is discarded (07 R132). -/
def State.columnGap (s : State) : State :=
  match s.columnRx.gapEnd .column with
  | none => s
  | some t => State.columnFound { s.reach t with columnRx := .hunting } .discarded

/-- A character on the column line: taken while the receiver attends, and disregarded otherwise (07 R132, R133,
R135; 08 R149). -/
def State.columnChar (s : State) (ch : LineChar) : State :=
  let s1 := if s.columnRx.lapsed .column ch.start then s.columnGap else s
  let s2 := s1.reach (stopBit .column ch)
  if s2.attends ch.start then
    let (rx, found) := s2.columnRx.take .column ch
    let s3 : State := { s2 with columnRx := rx }
    match found with
    | none => s3
    | some e => s3.columnFound e
  else s2

/-- Characters on the column line, one after another. -/
def State.columnChars (s : State) (chars : List LineChar) : State := chars.foldl State.columnChar s

/-- COLUMN_REPLY (08 R149). -/
def execColumnReply (chars : List LineChar) (s : State) : Host.Outcome State Fault Refusal :=
  event (fun s => s.columnChars chars) s

/-- COLUMN_FRAME_CORRUPT (07 R135): the characters are judged as R135 judges every frame. -/
def execColumnFrameCorrupt (chars : List LineChar) (s : State) : Host.Outcome State Fault Refusal :=
  event (fun s => s.columnChars chars) s

/-! ## Broadcasts and the poll (08 R152, R153) -/

/-- BROADCAST_SENT: the exchange ends SENT and its operation DONE (08 R152). -/
def State.broadcastSent (s : State) : State :=
  match s.exchange with
  | none => s
  | some x =>
    if x.stage = .broadcast then
      let s1 := (s.reach x.requestEnd).clearLine
      match s1.opOf x.tag with
      | none => s1
      | some op => if x.abandoned then s1 else s1.endOp op (.done false x.kind [])
    else s

/-- BROADCAST_SENT (08 R152). -/
def execBroadcastSent (s : State) : Host.Outcome State Fault Refusal := event State.broadcastSent s

/-- The slot of one column: the Column Supervisor takes its answer. Without one, each character that began in the
slot is counted (07 R138, 10 R181); that two or more characters are no answer and count each is a DESIGN CHOICE
(log 29). -/
def State.endSlot (s : State) (c : Col) (heard : List LineChar) : State :=
  match slotAnswer heard with
  | some a => s.takeSlot c (some a)
  | none => (heard.foldl (fun s _ => s.countColumnDiscard) s).takeSlot c none

/-- The slots of all columns, in order 1 to 8, after a POLL frame that ended at `t` (08 R153). -/
def State.takeSlots (s : State) (t : Time) (chars : List LineChar) : State :=
  allCols.foldl (fun s c => s.endSlot c (slotChars t c chars)) s

/-- POLL_END: slot 8 closes and the Column Supervisor takes the result; the slots of a POLL that a RESTART
has abandoned are disregarded (08 R153, R160). -/
def State.pollEnded (s : State) (chars : List LineChar) : State :=
  match s.exchange with
  | none => s
  | some x =>
    if x.stage = .slots then
      let s1 := (s.reach (x.requestEnd + pollSlots)).clearLine
      if x.abandoned then s1 else (s1.takeSlots x.requestEnd chars).removeOp x.tag
    else s

/-- POLL_END (08 R153). -/
def execPollEnd (chars : List LineChar) (s : State) : Host.Outcome State Fault Refusal :=
  event (fun s => s.pollEnded chars) s

end Sys2Proof.Machine
end

