-- ==== Sys2Proof/Machine/Clock.lean ====
section
/-! DEFINITION. CLOCK-SET (01 R9, R10): court time is set, and every deadline it brings due is taken. -/

namespace Sys2Proof.Machine

open Config

/-- A court-time deadline of the part (01 R10). -/
inductive Deadline where
  | window (i : Slot)
  | hold (l : LockerId)
  | lockout (c : Col)
  | settle (c : Col)
  | stall (l : LockerId)
  | rest (l : LockerId)
deriving DecidableEq, Repr

/-- The window close of an entry is due at `t`. -/
def entryDue (t : Nat) (x : Slot × Option Reservation) : List Deadline :=
  match x.2 with
  | none => []
  | some r => if r.closes ≤ t then [.window x.1] else []

/-- The deadlines of a locker that are due at `t`. -/
def lockerDue (t : Nat) (x : LockerId × Locker) : List Deadline :=
  match x.2.state with
  | .purging (some u) => if satAdd u stallSeconds ≤ t then [.stall x.1] else []
  | .purgeRest (some u) => if u ≤ t then [.rest x.1] else []
  | .holding _ m => if m.deadline ≤ t then [.hold x.1] else []
  | .releasing _ m => if m.deadline ≤ t then [.hold x.1] else []
  | .opened _ m _ => if m.deadline ≤ t then [.hold x.1] else []
  | .purging none | .purgeRest none | .absent | .purgeWait | .empty | .loading _ _ _ => []
  | .spoiled _ | .clearing _ _ _ | .blocked _ _ => []

/-- The deadlines of a column that are due at `t`. -/
def columnDue (t : Nat) (x : Col × Column) : List Deadline :=
  (match x.2.lockout with
    | some u => if u ≤ t then [.lockout x.1] else []
    | none => [])
  ++ (match x.2.state with
    | .settling (some u) => if u ≤ t then [.settle x.1] else []
    | .settling none | .unseen | .absent | .active | .service | .lost => [])

/-- Every deadline at or before court time `t` (01 R10). -/
def State.dueAt (s : State) (t : Nat) : List Deadline :=
  s.entries.pairs.flatMap (entryDue t) ++ s.lockers.pairs.flatMap (lockerDue t)
    ++ s.columns.pairs.flatMap (columnDue t)

/-- A deadline falls due in the block that owns it (01 R10). -/
def State.takeDeadline (s : State) (d : Deadline) : State :=
  match d with
  | .window i => s.windowDue i
  | .hold l => s.holdDue l
  | .lockout c => s.lockoutDue c
  | .settle c => s.settleDue c
  | .stall l => s.stallDue l
  | .rest l => s.restDue l

/-- The due deadlines are taken one after another, in an order the manual leaves open: the next one is a free
value (log 7). `fuel` is the number of deadlines. -/
def State.takeDeadlines (fuel : Nat) (s : State) (ds : List Deadline) : State :=
  match fuel, ds with
  | 0, _ => s
  | _, [] => s
  | _, [d] => s.takeDeadline d
  | n + 1, d :: e :: rest =>
    let all := d :: e :: rest
    let k := dueOrder s.choices % all.length
    State.takeDeadlines n (State.takeDeadline { s with choices := s.choices + 1 } (all[k]?.getD d))
      (all.eraseIdx k)

/-- The deadlines held as UNSET are written at the first CLOCK-SET (06 R121, R126). -/
def fillLocker (t : Nat) (lk : Locker) : Locker :=
  match lk.state with
  | .purging none => { lk with state := .purging (some t) }
  | .purgeRest none => { lk with state := .purgeRest (some (satAdd t restSeconds)) }
  | _ => lk

/-- Settle until held as UNSET is written at the first CLOCK-SET (10 R184). -/
def fillColumn (t : Nat) (col : Column) : Column :=
  match col.state with
  | .settling none => { col with state := .settling (some (satAdd t settleSeconds)) }
  | _ => col

/-- The value is taken: court time, the moment of its next advance, the deadlines held as UNSET (01 R8, R9). -/
def State.writeCourt (s : State) (t : Nat) : State :=
  let s1 := { s with court := some t, courtNext := s.now + ms 1000 }
  match s.court with
  | some _ => s1
  | none =>
    State.noteClockSet { s1 with lockers := s1.lockers.map (fillLocker t), columns := s1.columns.map (fillColumn t) }

/-- Court time becomes `t`, and every deadline at or before it falls due (01 R9, R10). Where the first CLOCK-SET
sets the second mark of R204, MODE(RUN) is queued before the notices of deadlines that fall due with it:
DESIGN CHOICE (log 34). -/
def State.setCourt (s : State) (t : Nat) : State :=
  let s1 := s.writeCourt t
  let due := s1.dueAt t
  if s.court = some t then s1 else s1.takeDeadlines due.length due

/-- Any entry is outside FREE. -/
def State.anyLive (s : State) : Bool := s.entries.cells.any Option.isSome

/-- RT decides a CLOCK-SET (01 R9). -/
def State.clockSetRequest (s : State) (body : List Byte) : State :=
  match numberReq 4 body with
  | none => s.answer 0x45#8 .badField []
  | some v =>
    match s.court with
    | none => (s.setCourt v).answer 0x45#8 .ok (beBytes 4 v)
    | some t =>
      if s.anyLive && (decide (t + 300 < v) || decide (v + 300 < t)) then
        s.answer 0x45#8 .skew s.courtBytes
      else (s.setCourt v).answer 0x45#8 .ok (beBytes 4 v)

/-- CLOCK_SET (01 R9). -/
def execClockSet (s : State) : Host.Outcome State Fault Refusal :=
  event (fun s => s.takeRequest 0x45#8 State.clockSetRequest) s

end Sys2Proof.Machine
end

