-- ==== Sys2Proof/Machine/Server.lean ====
section
/-! DEFINITION. The Server Port (chapter 11): received frames, the inbox, the end of a transmission, the
RESTART's effect; and the character-level events of both ports (chapter 7). -/

namespace Sys2Proof.Machine

open Config

/-! ## Frames received on the server port (07 R134, 11 R196) -/

/-- The destinations the server port accepts (07 R131, R134). -/
def acceptsDest (a : Station) : Bool := a == 0#4 || a == broadcastStation || (columnOf a).isSome

/-- A good frame is offered to the Server Inbox (11 R196). -/
def State.offerInbox (s : State) (f : Frame) : State :=
  if s.inbox.length < inboxSize then { s with inbox := s.inbox ++ [⟨f.dest, f.kind, f.body⟩] }
  else if s.replyRoom then s.placeReply ⟨replyKind f.kind, f.dest, [], false⟩
  else s.countServerDiscard

/-- A complete frame is judged by CRC, source and destination (07 R134). -/
def State.judgeServerFrame (s : State) (chars : List Byte) : State :=
  let f := frameOf chars
  if crcGood chars ∧ f.src = serverStation ∧ acceptsDest f.dest then s.offerInbox f
  else s.countServerDiscard

/-- What the server-port receiver finds (07 R132 to R134). -/
def State.serverFound (s : State) (e : RxEvent) : State :=
  match e with
  | .discarded => s.countServerDiscard
  | .complete chars => s.judgeServerFrame chars

/-- The gap limit of the server port runs out on the frame being assembled, which is discarded (07 R132). -/
def State.serverGap (s : State) : State :=
  match s.serverRx.gapEnd .server with
  | none => s
  | some t => State.serverFound { s.reach t with serverRx := .hunting } .discarded

/-- A character on the server port (07 R132, R133). -/
def State.serverChar (s : State) (ch : LineChar) : State :=
  let s1 := if s.serverRx.lapsed .server ch.start then s.serverGap else s
  let s2 := s1.reach (stopBit .server ch)
  let (rx, found) := s2.serverRx.take .server ch
  let s3 : State := { s2 with serverRx := rx }
  match found with
  | none => s3
  | some e => s3.serverFound e

/-- Characters on the server port, one after another. -/
def State.serverChars (s : State) (chars : List LineChar) : State := chars.foldl State.serverChar s

/-- SERVER_FRAME_RECEIVED (07 R134). -/
def execServerFrameReceived (chars : List LineChar) (s : State) : Host.Outcome State Fault Refusal :=
  event (fun s => s.serverChars chars) s

/-- Characters on a port. -/
def State.portChars (s : State) (port : Port) (chars : List LineChar) : State :=
  match port with
  | .server => s.serverChars chars
  | .column => s.columnChars chars

/-- The gap limit of a port runs out; nothing happens while its receiver hunts (07 R132). -/
def State.portGap (s : State) (port : Port) : State :=
  match port with
  | .server => s.serverGap
  | .column => s.columnGap

/-- CHARACTER_ERROR (07 R133): the receiver discards the frame at the character in error. -/
def execCharacterError (port : Port) (chars : List LineChar) (s : State) : Host.Outcome State Fault Refusal :=
  event (fun s => s.portChars port chars) s

/-- CHARACTER_GAP_TIMEOUT (07 R132). -/
def execCharacterGapTimeout (port : Port) (chars : List LineChar) (s : State) :
    Host.Outcome State Fault Refusal :=
  event (fun s => (s.portChars port chars).portGap port) s

/-- BAD_LENGTH (07 R132): the receiver discards the frame at its length character. -/
def execBadLength (port : Port) (chars : List LineChar) (s : State) : Host.Outcome State Fault Refusal :=
  event (fun s => s.portChars port chars) s

/-! ## The effect of a RESTART (11 R208) -/

/-- A column at a RESTART: UNSEEN, its panel cleared, its heat fields kept (10 R195, 03 R54, 05 R99). The heat
timer of an ABSENT column starts (05 R99, R101). -/
def Column.restarted (now : Time) (col : Column) : Column :=
  { col with
    state := .unseen, silence := 0, walkPending := true, attention := false, walkOwed := false
    wrong := 0, lockout := none
    heatNext := if col.state = .absent then some (now + heatPeriod) else col.heatNext }

/-- The exchange in flight is abandoned: its request and its window run their course (08 R160). One that waits
for a retry ends here, its quiet until counted from the end of its last try (log 16). -/
def State.abandon (s : State) : State :=
  match s.exchange with
  | none => s
  | some x =>
    match x.stage, x.dest with
    | .retryFrom t, .column c =>
      let s1 := s.clearLine
      s1.setColumn c { s1.column c with quiet := some (t + columnSpacing) }
    | _, _ => { s with exchange := some { x with abandoned := true } }

/-- A pending RESTART takes effect (11 R208). -/
def State.restartEffect (s : State) : State :=
  let s1 := s.abandon
  { s1 with
    inbox := [], replies := [], notices := [], gap := 0, sending := none, restartPending := false
    ops := [initialWalk s1.now], reserve := 0, streak := 0
    mode := .starting, walkEnded := false, clockMark := s1.court.isSome, ledLow := false
    columns := s1.columns.map (Column.restarted s1.now), shift := none }

/-- The end of the RESTART reply's transmission, when that is the frame being sent (11 R207); internal time stands:
DESIGN CHOICE (log 36). -/
def State.restartTakesEffect (s : State) : State :=
  match s.sending with
  | none => s
  | some f => if f.restart then s.restartEffect else s

/-- RESTART_TAKES_EFFECT (11 R208). -/
def execRestartTakesEffect (s : State) : Host.Outcome State Fault Refusal :=
  event State.restartTakesEffect s

/-- TRANSMIT_END: the frame ends and the transmitter is idle; the end of the RESTART reply brings the RESTART
into effect (11 R198, R207; log 9). The moment at which the frame ends is the sender's and internal time stands:
DESIGN CHOICE (log 36). -/
def State.transmitEnd (s : State) : State :=
  match s.sending with
  | none => s
  | some f => if f.restart then s.restartEffect else { s with sending := none }

/-- TRANSMIT_END (11 R198). -/
def execTransmitEnd (s : State) : Host.Outcome State Fault Refusal := event State.transmitEnd s

/-! ## Power and RESET_N (01 R26, 00_scope Table 0-6) -/

/-- POWER_ON_RESET: the part starts in its power-on state, the commands that wait kept (01 R26). -/
def execPowerOnReset (s : State) : Host.Outcome State Fault Refusal :=
  .next { State.reset with pending := s.pending, choices := s.choices }

/-- RESET_ASSERTED: the part is held in its power-on state, its queue of operations empty until it starts
(01 R26, 09 R177). -/
def execResetAsserted (s : State) : Host.Outcome State Fault Refusal :=
  .next { State.reset with pending := s.pending, choices := s.choices, held := true, ops := [] }

/-! ## The pin CP_DE (07 R129, 08 R160) -/

/-- The exchange transmits its request until `requestEnd`. -/
def ExStage.sends : ExStage → Bool
  | .awaiting => true
  | .closing => false
  | .retryFrom _ => false
  | .broadcast => true
  | .slots => true

/-- CP_DE is high while the LB-64 drives the column line (07 R129). -/
def State.driverEnable (s : State) : Bool :=
  match s.exchange with
  | none => false
  | some x => x.stage.sends && decide (s.now < x.requestEnd)

end Sys2Proof.Machine
end

