-- ==== Sys2Proof/Machine/Dispatch.lean ====
section
/-! DEFINITION. One arm for each command of the LB-64: one direct call of its meaning. -/

namespace Sys2Proof.Machine

def exec (i : Instr) (s : State) : Host.Outcome State Fault Refusal :=
  match i with
  | .powerOnReset => Sys2Proof.Machine.execPowerOnReset s
  | .characterError port chars => Sys2Proof.Machine.execCharacterError port chars s
  | .characterGapTimeout port chars => Sys2Proof.Machine.execCharacterGapTimeout port chars s
  | .serverFrameReceived chars => Sys2Proof.Machine.execServerFrameReceived chars s
  | .resPut => Sys2Proof.Machine.execResPut s
  | .resDrop => Sys2Proof.Machine.execResDrop s
  | .resShift => Sys2Proof.Machine.execResShift s
  | .trainShift => Sys2Proof.Machine.execTrainShift s
  | .resRead => Sys2Proof.Machine.execResRead s
  | .clockSet => Sys2Proof.Machine.execClockSet s
  | .lockerRead => Sys2Proof.Machine.execLockerRead s
  | .faultClear => Sys2Proof.Machine.execFaultClear s
  | .classSet => Sys2Proof.Machine.execClassSet s
  | .columnSet => Sys2Proof.Machine.execColumnSet s
  | .purgeAbort => Sys2Proof.Machine.execPurgeAbort s
  | .rollCall => Sys2Proof.Machine.execRollCall s
  | .columnRead => Sys2Proof.Machine.execColumnRead s
  | .filterSet => Sys2Proof.Machine.execFilterSet s
  | .modeSet => Sys2Proof.Machine.execModeSet s
  | .statsRead => Sys2Proof.Machine.execStatsRead s
  | .restart => Sys2Proof.Machine.execRestart s
  | .unknownKind => Sys2Proof.Machine.execUnknownKind s
  | .passThrough => Sys2Proof.Machine.execPassThrough s
  | .restartTakesEffect => Sys2Proof.Machine.execRestartTakesEffect s
  | .transmitEnd => Sys2Proof.Machine.execTransmitEnd s
  | .courtTimeAdvance => Sys2Proof.Machine.execCourtTimeAdvance s
  | .windowClose slot => Sys2Proof.Machine.execWindowClose slot s
  | .holdDeadline locker => Sys2Proof.Machine.execHoldDeadline locker s
  | .lockoutEnd column => Sys2Proof.Machine.execLockoutEnd column s
  | .settleEnd column => Sys2Proof.Machine.execSettleEnd column s
  | .purgeStall locker => Sys2Proof.Machine.execPurgeStall locker s
  | .restEnd locker => Sys2Proof.Machine.execRestEnd locker s
  | .trainShiftVisit => Sys2Proof.Machine.execTrainShiftVisit s
  | .heatPeriodExpiry column => Sys2Proof.Machine.execHeatPeriodExpiry column s
  | .doorHeld locker => Sys2Proof.Machine.execDoorHeld locker s
  | .pollTimerExpiry => Sys2Proof.Machine.execPollTimerExpiry s
  | .portGrant => Sys2Proof.Machine.execPortGrant s
  | .retry => Sys2Proof.Machine.execRetry s
  | .tryTimeout => Sys2Proof.Machine.execTryTimeout s
  | .columnReply chars => Sys2Proof.Machine.execColumnReply chars s
  | .columnFrameCorrupt chars => Sys2Proof.Machine.execColumnFrameCorrupt chars s
  | .broadcastSent => Sys2Proof.Machine.execBroadcastSent s
  | .pollEnd chars => Sys2Proof.Machine.execPollEnd chars s
  | .badLength port chars => Sys2Proof.Machine.execBadLength port chars s
  | .resetAsserted => Sys2Proof.Machine.execResetAsserted s

end Sys2Proof.Machine
end

