-- ==== Sys2Proof/Safety.lean ====
section
/-! DEFINITION. What the LB-64 must keep in every state: the laws of the manual as predicates on State, and
the words the statements are written with. -/

namespace Sys2Proof.Machine

open Config

/-! ## Laws of the state -/

/-- No two entries outside FREE hold the same tag or the same code (01 R4). -/
def State.UniqueKeys (s : State) : Prop :=
  ∀ i j r q, s.entry i = some r → s.entry j = some q → r.tag = q.tag ∨ r.code = q.code → i = j

/-- The locker state and the entry stage of a bound pair correspond, and the stage names the locker
(02 R32). -/
def LockerState.fits (st : LockerState) (l : LockerId) (g : Stage) : Prop :=
  match st, g with
  | .loading _ _ _, .loading k => k = l
  | .holding _ _, .ready k _ => k = l
  | .releasing _ _, .releasing k _ _ => k = l
  | .opened _ _ _, .opened k _ _ => k = l
  | _, _ => False

/-- The binding law: a locker names a slot exactly when that entry names the locker, in corresponding states
(02 R32). -/
def State.BindingLaw (s : State) : Prop :=
  (∀ l i, (s.locker l).state.slot = some i →
      ∃ r, s.entry i = some r ∧ (s.locker l).state.fits l r.stage)
    ∧ ∀ i r l, s.entry i = some r → r.stage.locker = some l → (s.locker l).state.slot = some i

/-- A held meal's entry closes no later than the meal's hold deadline (01 R7). -/
def State.CloseLimited (s : State) : Prop :=
  ∀ l i m r, (s.locker l).state.meal = some (i, m) → s.entry i = some r → r.closes ≤ m.deadline

/-- The door law: at most one UNLATCH is outstanding for a locker, and while a side is in use it is for that
side (02 R30). -/
def State.DoorLaw (s : State) : Prop :=
  ∀ l, (s.ops.filter fun op => op.isUnlatch l).length ≤ 1
    ∧ ∀ op ∈ s.ops, op.isUnlatch l = true →
        ∀ side, (s.locker l).state.sideInUse = some side → op.side = some side

/-- At most 32 operations, each under its own tag 0 to 31, entry 0 kept for the POLL; and mode WALK belongs to
the ROLL operations of the Column Supervisor alone (09 R167, 10 R187). -/
def State.QueueLaw (s : State) : Prop :=
  s.ops.length ≤ 32 ∧ (s.ops.map Op.tag).Nodup
    ∧ ∀ op ∈ s.ops, op.tag ≤ 31 ∧ (op.tag = 0 ↔ op.origin = .poll)
      ∧ (op.mode.isWalk = true → op.origin = .roll ∧ op.kind = 0x03#8)

/-- The Server Port's queues hold what they have room for, and a reply entry stays free for each PASS
operation outstanding, of which there are at most two (11 R196 to R199, R202). -/
def State.PortLaw (s : State) : Prop :=
  s.inbox.length ≤ 4 ∧ s.notices.length ≤ 64 ∧ s.replies.length + s.passOutstanding ≤ 8
    ∧ s.passOutstanding ≤ 2

/-- The granted units of a column never exceed its budget (05 R104). -/
def State.BudgetLaw (s : State) : Prop :=
  ∀ c, (s.column c).granted.cells.sum ≤ (s.column c).budget

/-- LINK_LED is low exactly in RUN, STARTING ends when both marks are set, and the court-time mark tells
whether court time is set (11 R204). -/
def State.ModeLaw (s : State) : Prop :=
  (s.ledLow = true ↔ s.mode = .run) ∧ ¬(s.mode = .starting ∧ s.walkEnded = true ∧ s.clockMark = true)
    ∧ s.clockMark = s.court.isSome

/-- Every PASS operation is of a kind that has a Filter Table entry, so of none of the kinds 0x01 to 0x08
(11 R201). -/
def State.PassLaw (s : State) : Prop :=
  ∀ op ∈ s.ops, op.origin = .pass → op.kind = 0x09#8 ∨ 0x10 ≤ op.kind.toNat ∧ op.kind.toNat ≤ 0x3F

/-- The fields of a column record stay in their ranges, and a panel is locked out exactly while its wrong
count is 5 (10 Table 10-1, 05 Table 5-3, 03 R58). -/
def Column.inRange (col : Column) : Prop :=
  col.silence ≤ 3 ∧ col.wrong ≤ 5 ∧ (col.wrong = 5 ↔ col.lockout.isSome) ∧ 3 ≤ col.budget
    ∧ col.budget ≤ 24 ∧ (∀ b, col.pendingBudget = some b → 3 ≤ b ∧ b ≤ 24) ∧ ∀ p, col.granted.get p ≤ 3

/-- The counted fields of a locker record stay in their ranges (02 Table 2-1). -/
def Locker.inRange (lk : Locker) : Prop := lk.rating ≤ 3 ∧ lk.demand ≤ 3 ∧ lk.refusals ≤ 6

/-- The fields of an entry stay in their ranges; a hold override stays within the highest hold limit a class
may have (01 Table 1-1, 05 Table 5-1). -/
def Reservation.inRange (r : Reservation) : Prop :=
  r.tag ≠ 0 ∧ r.tag ≤ maxCourt ∧ r.code ≠ 0 ∧ r.code ≤ 999999 ∧ r.opens ≤ maxCourt
    ∧ r.closes ≤ maxCourt ∧ (∀ n, r.train = some n → 1 ≤ n ∧ n ≤ 65535)
    ∧ (∀ h, r.holdOverride = some h → 600 ≤ h ∧ h ≤ 14400)
    ∧ ∀ why, r.stage.pending = some why → why = .window ∨ why = .hold ∨ why = .cold

/-- The fields of every record stay in the ranges of their tables (01 Table 1-1, 02 Table 2-1, 05 Tables 5-1 and
5-3, 10 Table 10-1), court time, the gap count and the streak count in theirs (01 R8, 11 R199, 09 R173). -/
def State.RangeLaw (s : State) : Prop :=
  (∀ c, (s.column c).inRange) ∧ (∀ l, (s.locker l).inRange)
    ∧ (∀ i r, s.entry i = some r → r.inRange)
    ∧ (∀ k rec, s.classes.get k = some rec → rec.inRange = true)
    ∧ (∀ t, s.court = some t → t ≤ maxCourt) ∧ s.gap ≤ 65535 ∧ s.streak ≤ 4

/-! ## Words of the statements -/

/-- The part runs, MI may take a frame, and the head of the inbox is a request of station 0 (11 R197). -/
def State.HeadIs (s : State) (kind : Byte) (body : List Byte) (rest : List InboxFrame) : Prop :=
  s.held = false ∧ s.passOutstanding < 8 - s.replies.length ∧ s.restartPending = false
    ∧ s.inbox = ⟨0#4, kind, body⟩ :: rest

/-- MI has taken the head of the inbox and placed one reply of station 0. -/
def State.answered (s : State) (rest : List InboxFrame) (kind : Byte) (body : List Byte) : State :=
  { s with inbox := rest, replies := s.replies ++ [⟨kind, 0#4, body, false⟩] }

/-- `u` is `v` after column `c` has left reach (09 R176, 08 R159): its queued operations, walks apart, are gone, each
PASS operation among them answered UNREACHABLE in arrival order, and an exchange in flight to it is marked; only
a cancelled HEAT-SET, whose period is blind, touches anything else, and never a column record. -/
def LeavesReach (v u : State) (c : Col) : Prop :=
  let leaves (op : Op) : Bool := op.dest == .column c && !op.inFlight && !op.mode.isWalk
  let answer (op : Op) : Option Reply :=
    if op.origin = .pass then
      op.inboxRef.map fun ref => ⟨ref.kind ||| 0x80#8, ref.dest, 0x4D#8 :: op.mode.countData, false⟩
    else none
  let left : State :=
    { v with
      ops := v.ops.filter fun op => !leaves op
      replies := v.replies ++ (v.ops.filter leaves).filterMap answer
      exchange := v.exchange.map fun x => if x.dest = .column c then { x with leftReach := true } else x }
  u = { left with entries := u.entries, lockers := u.lockers, notices := u.notices, gap := u.gap
                  counters := u.counters }
    ∧ v.notices <+: u.notices
    ∧ ((∀ op ∈ v.ops, leaves op = true → op.origin ≠ .heat) → u = left)

/-- The part runs, and an exchange with column `c` awaits its reply with no frame begun (08 R149). -/
def State.Awaits (s : State) (x : Exchange) (c : Col) : Prop :=
  s.held = false ∧ s.exchange = some x ∧ x.dest = .column c ∧ x.stage = .awaiting ∧ s.columnRx = .hunting

/-- The characters begin with a start mark inside the reply window (08 R149). -/
def Exchange.opensWith (x : Exchange) (chars : List LineChar) : Prop :=
  ∃ ch rest, chars = ch :: rest ∧ ch.byte = some startMark ∧ x.requestEnd + 200 ≤ ch.start
    ∧ ch.start < x.requestEnd + 8000

/-- The last of the characters, come within the gap limit, is the one at which the receiver finds `e`, and nothing
else is found (07 R132, R133). -/
def Receiver.findsLast (r : Receiver) (port : Port) (chars : List LineChar) (e : RxEvent) : Prop :=
  ∃ init ch cs last, chars = init ++ [ch] ∧ r.hear port init = (.assembling cs last, [])
    ∧ ch.start ≤ last + gapLimit port ∧ r.hear port chars = (.hunting, [e])

/-- The characters carry these bytes, none in error. -/
def Carries (chars : List LineChar) (bytes : List Byte) : Prop := chars.map LineChar.byte = bytes.map some

/-- No gap between the characters exceeds the gap limit of the port (07 R132). -/
def gapsWithin (port : Port) : List LineChar → Bool
  | a :: b :: rest => decide (b.start ≤ stopBit port a + gapLimit port) && gapsWithin port (b :: rest)
  | [_] => true
  | [] => true

/-- The moment at which the characters have been heard: their latest stop bit, or `now` if that is later. -/
def heardBy (port : Port) (now : Time) (chars : List LineChar) : Time :=
  chars.foldl (fun t ch => max t (stopBit port ch)) now

/-- A frame begun inside the reply window of a try to column `c` ends at `t` without being its reply, the window closed
by then: broken off by its last character, complete but not the reply, or run into the gap limit. The characters are
the frame's, or, where the window closed upon it (stage `closing`), the rest of it (07 R132, R133, R135; 08 R149,
R150). -/
def State.FrameEndsTry (s : State) (x : Exchange) (c : Col) (cmd : Instr) (t : Time) : Prop :=
  ∃ chars,
    (s.Awaits x c ∧ x.opensWith chars ∧ x.requestEnd + 8000 ≤ t
      ∨ s.held = false ∧ s.exchange = some x ∧ x.dest = .column c ∧ x.stage = .closing ∧ s.columnRx.busy = true)
    ∧ ((cmd = .characterError .column chars ∨ cmd = .badLength .column chars)
        ∧ s.columnRx.findsLast .column chars .discarded ∧ t = heardBy .column s.now chars
      ∨ cmd = .columnFrameCorrupt chars
        ∧ (∃ whole, s.columnRx.findsLast .column chars (.complete whole) ∧ x.accepts c whole = none)
        ∧ t = heardBy .column s.now chars
      ∨ cmd = .characterGapTimeout .column chars
        ∧ ∃ cs last, s.columnRx.hear .column chars = (.assembling cs last, [])
          ∧ t = max (heardBy .column s.now chars) (last + 1000))

/-- The reply of column `c` to the exchange (07 R135). -/
def Exchange.replyFrame (x : Exchange) (c : Col) (body : List Byte) : Frame :=
  ⟨0#4, stationOf c, replyKind x.kind, body⟩

/-- The column after a good reply of the present moment: answered, quiet for 10 ms (08 R151, 10 R182). -/
def State.afterReply (s : State) (c : Col) : State :=
  { s with
    exchange := none, released := some s.now, columnRx := .hunting, reserve := 0
    columns := s.columns.set c { s.column c with silence := 0, quiet := some (s.now + 10000) } }

end Sys2Proof.Machine
end

