-- ==== Sys2Proof/Certificates/Slice0/Obligations.lean ====
section
/-! DEFINITION. The statements about the LB-64 model: resets, steps, every command, and the laws every step
keeps. Two conventions of the model stand in many of them: `transmit` at the end of an outcome is the idle
transmitter of 11 R198 taking up its next frame when the event ends (log 8), and `max now t` in a time-driven
command is internal time brought to the command's moment (log 3). -/

open Sys2Proof Sys2Proof.Machine Sys2Proof.Config

/-! ## The block's interface -/

/-- One step takes the command at the front of the queue and runs it on the queue's rest. -/
def Obligations.StepRunsTheFrontCommand : Prop :=
  ∀ (s : State) (c : Instr) (rest : List Instr), s.pending = c :: rest →
    step s = exec c { s with pending := rest }

/-- With no command waiting, internal time advances by one microsecond, or the held part stands still. That is
the model's choice (log 2).
While RESET_N holds the part, every command but POWER_ON_RESET and RESET_ASSERTED changes nothing
(log 6). -/
def Obligations.IdleAndHeldStepsDoNothingElse : Prop :=
  (∀ s : State, s.pending = [] →
      (s.held = false → step s = .next { s with now := s.now + 1 }) ∧ (s.held = true → step s = .next s))
  ∧
  (∀ (s : State) (c : Instr), s.held = true → c ≠ .powerOnReset → c ≠ .resetAsserted → exec c s = .next s)

/-- POWER_ON_RESET starts the part in its power-on state and RESET_ASSERTED holds it there: tables, queues,
timers, marks and counters have the values of 01 R26, 02 R52, 03 R54, 05 R97 and R99, 07 R132, 08 R160,
09 R177, 10 R178 and R180, 11 R196 to R206. Internal time 0 is the model's choice (log 2, log 23); the
commands that wait are kept. -/
def Obligations.ResetLeavesThePowerOnState : Prop :=
  ∀ s : State, ∃ t u : State, exec .powerOnReset s = .next t ∧ exec .resetAsserted s = .next u
    ∧ t.held = false ∧ u = { t with held := true, ops := [] } ∧ t.pending = s.pending
    ∧ (∀ i, t.entry i = none) ∧ t.court = none ∧ t.shift = none
    ∧ (∀ l, t.locker l = ⟨.absent, 0, .unknown, none, 0, 0⟩)
    ∧ (∀ c, t.column c =
        { state := .unseen, silence := 0, walkPending := true, attention := false, walkOwed := false
          budget := 8, pendingBudget := none, pointer := 0, granted := .fill 8 0
          heatNext := some 10000000, wrong := 0, lockout := none, quiet := none })
    ∧ t.classes.get 0 = some ⟨1, 720, 630, 5400, 600, 2⟩
    ∧ t.classes.get 1 = some ⟨2, 800, 700, 3600, 300, 3⟩
    ∧ t.classes.get 2 = some ⟨1, 650, 600, 7200, 900, 1⟩ ∧ t.classes.get 3 = none
    ∧ t.ops = [{ tag := 1, dest := .column 0, kind := 0x03#8, position := some 0, side := none
                 mode := .walk ⟨[], 0, [1, 2, 3, 4, 5, 6, 7], 0, .initial⟩
                 cls := .routine, origin := .roll, slot := none, inboxRef := none, body := []
                 notBefore := t.now, inFlight := false }]
    ∧ t.reserve = 0 ∧ t.streak = 0 ∧ t.exchange = none ∧ t.released = none ∧ t.columnRx = .hunting
    ∧ t.pollNext = t.now + 40000 ∧ t.serverRx = .hunting ∧ t.inbox = [] ∧ t.replies = []
    ∧ t.notices = [] ∧ t.sending = none ∧ t.gap = 0 ∧ t.restartPending = false
    ∧ (∀ k, t.filter.get k = if k = 0 then ⟨.passInService, false⟩ else ⟨.refuse, false⟩)
    ∧ t.mode = .starting ∧ t.walkEnded = false ∧ t.clockMark = false ∧ t.ledLow = false
    ∧ t.counters = ⟨0, 0, 0, 0, 0, 0, 0, 0⟩ ∧ t.now = 0

/-- The part right after reset keeps every law. -/
def Obligations.ResetKeepsEveryLaw : Prop :=
  State.reset.UniqueKeys ∧ State.reset.BindingLaw ∧ State.reset.CloseLimited ∧ State.reset.DoorLaw
    ∧ State.reset.QueueLaw ∧ State.reset.PortLaw ∧ State.reset.BudgetLaw ∧ State.reset.ModeLaw
    ∧ State.reset.PassLaw ∧ State.reset.RangeLaw

/-! ## Laws that every step keeps -/

/-- Tags and codes of the entries outside FREE stay distinct (01 R4). -/
def Obligations.StepKeepsTagsAndCodesDistinct : Prop :=
  ∀ s t : State, s.UniqueKeys → step s = .next t → t.UniqueKeys

/-- The binding law of entries and lockers stands after every step (02 R32). -/
def Obligations.StepKeepsTheBindingLaw : Prop :=
  ∀ s t : State, s.BindingLaw → step s = .next t → t.BindingLaw

/-- Where the binding law stands, a held meal's entry never closes after its hold deadline (01 R7). -/
def Obligations.StepKeepsCloseWithinHoldDeadline : Prop :=
  ∀ s t : State, s.BindingLaw → s.CloseLimited → step s = .next t → t.CloseLimited

/-- Where the queue law stands, no locker ever has two UNLATCHes outstanding, nor one for the side not in use
(02 R30). -/
def Obligations.StepKeepsTheDoorLaw : Prop :=
  ∀ s t : State, s.QueueLaw → s.DoorLaw → step s = .next t → t.DoorLaw

/-- The Operation Queue never holds more than 32 operations, each under its own tag, entry 0 for the POLL
(09 R167), and mode WALK belongs to the Column Supervisor's ROLL operations alone (10 R187, 08 Table 8-2). -/
def Obligations.StepKeepsTheQueueLaw : Prop :=
  ∀ s t : State, s.QueueLaw → step s = .next t → t.QueueLaw

/-- Where the queue law stands, inbox, notice queue and reply queue never overflow, and every PASS operation
outstanding has a reply entry kept (11 R196 to R199, R202). -/
def Obligations.StepKeepsThePortQueuesInBounds : Prop :=
  ∀ s t : State, s.QueueLaw → s.PortLaw → step s = .next t → t.PortLaw

/-- The heat units recorded as granted never exceed a column's effective budget (05 R104). -/
def Obligations.StepKeepsGrantsWithinTheBudget : Prop :=
  ∀ s t : State, s.BudgetLaw → step s = .next t → t.BudgetLaw

/-- LINK_LED follows the mode, and the marks and court time agree with it (11 R204). -/
def Obligations.StepKeepsTheModeLaw : Prop :=
  ∀ s t : State, s.ModeLaw → step s = .next t → t.ModeLaw

/-- Every PASS operation in the queue is of a kind with a Filter Table entry, so none is of a kind 0x01 to 0x08
(11 R201). -/
def Obligations.StepKeepsGuardedKindsOutOfPassOperations : Prop :=
  ∀ s t : State, s.PassLaw → step s = .next t → t.PassLaw

/-- The numbers of every record stay in the ranges their tables give: an entry's tag, code, open, close, train, hold
override and expiry pending (01 Table 1-1), a locker's rating, demand and refusals (02 Table 2-1), the fields of an
enabled class (05 Table 5-1), a column's budgets, granted units, silence and wrong count with the lockout that
goes with it (05 Table 5-3, 10 Table 10-1, 03 R58); and court time (01 R8), gap count (11 R199) and streak count
(09 R173) in theirs. -/
def Obligations.StepKeepsFieldsInRange : Prop :=
  ∀ s t : State, s.RangeLaw → step s = .next t → t.RangeLaw

/-! ## Frames (chapter 7) -/

/-- A frame that goes out is received as itself, on either port: a hunting receiver that hears its characters,
no gap above the port's limit, completes it once, its CRC is good, and its fields are read back, for every
station, kind and body of up to 48 bytes (07 R129, R130, R132). -/
def Obligations.FramesAreReadBack : Prop :=
  ∀ (f : Frame) (port : Port) (chars : List LineChar), f.body.length ≤ 48 → Carries chars f.chars →
    gapsWithin port chars = true →
    f.chars.length = 6 + f.body.length
      ∧ Receiver.hunting.hear port chars = (.hunting, [.complete f.chars])
      ∧ crcGood f.chars = true ∧ frameOf f.chars = f

/-- The CRC of frames (07 R130): the register starts at 0xFFFF and takes bytes most significant bit first by the
generator x^16 + x^12 + x^5 + 1; it covers address, kind, length and body and goes out high byte first; over "1"
to "9" it ends at 0x29B1; a received frame is good when it equals the two CRC characters; every frame the part
sends carries it; and a frame whose CRC is bad is discarded by its port. -/
def Obligations.CrcChecksEveryFrame : Prop :=
  crc [] = 0xFFFF#16
    ∧ (∀ (bs : List Byte) (b : Byte), crc (bs ++ [b]) =
        [7, 6, 5, 4, 3, 2, 1, 0].foldl
          (fun (r : BitVec 16) k => if r.msb = b.getLsbD k then r <<< 1 else (r <<< 1) ^^^ 0x1021#16) (crc bs))
    ∧ (∀ f : Frame,
        let covered := (f.dest ++ f.src : BitVec 8) :: f.kind :: BitVec.ofNat 8 f.body.length :: f.body
        f.chars = 0xC3#8 :: (covered ++ [(crc covered).extractLsb' 8 8, (crc covered).extractLsb' 0 8]))
    ∧ crc [0x31#8, 0x32#8, 0x33#8, 0x34#8, 0x35#8, 0x36#8, 0x37#8, 0x38#8, 0x39#8] = 0x29B1#16
    ∧ (∀ (mark address kind len hi lo : Byte) (body : List Byte), body.length = len.toNat →
        (crcGood (mark :: address :: kind :: len :: (body ++ [hi, lo])) = true ↔
          crc (address :: kind :: len :: body) = hi ++ lo))
    ∧ (∀ (s : State) (f : Sending), s.sending = none → s.transmit.sending = some f →
        ∃ g : Frame, f.chars = g.chars)
    ∧ (∀ (s : State) (op : Op), ∃ (x : Exchange) (g : Frame), (s.startExchange op).exchange = some x
        ∧ x.request = g.chars ∧ g.kind = op.kind ∧ (op.mode = .once → g.body = op.body))
    ∧ ∀ chars : List Byte, crcGood chars = false →
        (∀ s : State, s.judgeServerFrame chars = s.countServerDiscard)
          ∧ ∀ (x : Exchange) (c : Col), x.accepts c chars = none

/-- A good frame from the server enters the inbox while it holds fewer than 4; otherwise it is answered by an
empty BUSY when a reply entry can be spared, or is discarded and counted (07 R134, 11 R196). A frame with a
bad CRC, source or destination is discarded and counted. -/
def Obligations.ServerFramesAreJudged : Prop :=
  ∀ (s : State) (chars : List LineChar) (whole : List Byte), s.held = false → s.serverRx = .hunting →
    Receiver.hunting.hear .server chars = (.hunting, [.complete whole]) →
    let f := frameOf whole
    let good := crcGood whole = true ∧ f.src = 13#4
      ∧ (f.dest = 0#4 ∨ f.dest = 15#4 ∨ 1 ≤ f.dest.toNat ∧ f.dest.toNat ≤ 8)
    let spare := s.passOutstanding < 8 - s.replies.length
    let s1 : State := { s with now := heardBy .server s.now chars }
    let counted : State :=
      { s1 with counters :=
          { s.counters with serverDiscarded := min 4294967295 (s.counters.serverDiscarded + 1) } }
    (¬good → exec (.serverFrameReceived chars) s = .next counted.transmit)
      ∧ (good → s.inbox.length < 4 → exec (.serverFrameReceived chars) s =
          .next (State.transmit { s1 with inbox := s.inbox ++ [⟨f.dest, f.kind, f.body⟩] }))
      ∧ (good → 4 ≤ s.inbox.length → spare → exec (.serverFrameReceived chars) s =
          .next (State.transmit
            { s1 with replies := s.replies ++ [⟨f.kind ||| 0x80#8, f.dest, [], false⟩] }))
      ∧ (good → 4 ≤ s.inbox.length → ¬spare → exec (.serverFrameReceived chars) s =
          .next counted.transmit)

/-- On the server port a character error, a bad length and a gap of more than 2 ms each discard the frame being
assembled, count it once, and leave the receiver hunting (07 R132, R133, R134); a gap that runs out does so 2 ms
after the last stop bit. A receiver that hunts disregards the error and the gap.
The same on the column line, with a limit of 1 ms, while a reply is awaited: the frame is corrupt, "column
frames discarded" counts one, and the exchange goes on while its window is open at that moment; once the window
has closed, the discard ends the try (07 R132, R133, R135, 08 R150). A column receiver that hunts disregards the error
and the gap. While no reply is awaited (no exchange in flight, after a broadcast, in a POLL's slots, between two tries)
the characters are disregarded and nothing is counted. That the window is closed at its eighth millisecond itself is
the model's choice (log 37). A character error or a bad length at or after the close, on a frame begun inside the window, is counted and
ends the try, as the gap limit does. -/
def Obligations.PortsDiscardBrokenFrames : Prop :=
  (∀ (s : State) (chars : List LineChar) (cs : List Byte) (last : Time), s.held = false →
      let counted (t : Time) : State :=
        { s with
          now := t
          serverRx := .hunting
          counters :=
            { s.counters with serverDiscarded := min 4294967295 (s.counters.serverDiscarded + 1) } }
      let heard := heardBy .server s.now chars
      (s.serverRx.hear .server chars = (.hunting, [.discarded]) →
          exec (.characterError .server chars) s = .next (counted heard).transmit
            ∧ exec (.badLength .server chars) s = .next (counted heard).transmit)
        ∧ (s.serverRx.hear .server chars = (.assembling cs last, []) →
            exec (.characterGapTimeout .server chars) s =
              .next (counted (max heard (last + 2000))).transmit)
        ∧ (s.serverRx = .hunting → exec (.characterGapTimeout .server []) s = .next s.transmit
            ∧ ∀ t, exec (.characterError .server [⟨t, none⟩]) s =
                .next (State.transmit { s with now := heardBy .server s.now [⟨t, none⟩] })))
  ∧
  (∀ (s : State) (x : Exchange) (c : Col) (chars : List LineChar) (cs : List Byte) (last : Time),
      let counted (t : Time) : State :=
        { s with
          now := t
          counters :=
            { s.counters with columnDiscarded := min 4294967295 (s.counters.columnDiscarded + 1) } }
      let heard := heardBy .column s.now chars
      (s.Awaits x c → x.opensWith chars →
        (Receiver.hunting.hear .column chars = (.hunting, [.discarded]) → heard < x.requestEnd + 8000 →
            exec (.characterError .column chars) s = .next (counted heard).transmit
              ∧ exec (.badLength .column chars) s = .next (counted heard).transmit)
          ∧ (Receiver.hunting.hear .column chars = (.assembling cs last, []) →
              let gone := max heard (last + 1000)
              (gone < x.requestEnd + 8000 →
                exec (.characterGapTimeout .column chars) s = .next (counted gone).transmit)
              ∧ (x.requestEnd + 8000 ≤ gone → x.abandoned = false → x.tryNo < 3 →
                  exec (.characterGapTimeout .column chars) s =
                    .next (State.transmit
                      { counted gone with exchange := some { x with stage := .retryFrom gone } }))))
      ∧ (∀ t, x.abandoned = false → x.tryNo < 3 →
          let ends : State := { counted t with exchange := some { x with stage := .retryFrom t }, columnRx := .hunting }
          (s.FrameEndsTry x c (.characterError .column chars) t →
              exec (.characterError .column chars) s = .next ends.transmit)
            ∧ (s.FrameEndsTry x c (.badLength .column chars) t →
                exec (.badLength .column chars) s = .next ends.transmit))
      ∧ (s.held = false → s.columnRx = .hunting →
          exec (.characterGapTimeout .column []) s = .next s.transmit
            ∧ ∀ t, exec (.characterError .column [⟨t, none⟩]) s =
                .next (State.transmit { s with now := heardBy .column s.now [⟨t, none⟩] }))
      ∧ (s.held = false → s.columnRx = .hunting →
          (∀ y, s.exchange = some y →
            y.stage = .broadcast ∨ y.stage = .slots ∨ ∃ t, y.stage = .retryFrom t) →
          exec (.characterError .column chars) s = .next (State.transmit { s with now := heard })
            ∧ exec (.characterGapTimeout .column chars) s = .next (State.transmit { s with now := heard })
            ∧ exec (.badLength .column chars) s = .next (State.transmit { s with now := heard })))

/-! ## The Server Port and the Management Interpreter (chapter 11) -/

/-- What the transmitter does at the end of every event: busy, it goes on; idle, it starts the head of the
reply queue, or else of the notice queue, whose freed entry takes a GAP notice while notices have been lost
(11 R198, R199). TRANSMIT_END of any frame but the RESTART reply makes it idle first, and internal time stands, by the
model's choice (log 36).
A notice enters the queue while it holds fewer than 64; otherwise it is lost, and the counter and the gap
count each count it (11 R199).
A notice's kind is that of Table 7-8 and its body the fields of Table 11-3 in their order, each encoded by Tables 7-9
and 7-10, an optional field that is absent as zero (07 R147). -/
def Obligations.TransmitterAndNoticeQueue : Prop :=
  ((∀ s : State, s.sending.isSome → s.transmit = s)
      ∧ (∀ (s : State) (r : Reply) (rs : List Reply), s.sending = none → s.replies = r :: rs →
          s.transmit =
            { s with replies := rs
                     sending := some ⟨(Frame.mk 13#4 r.src r.kind r.body).chars, r.restart⟩ })
      ∧ (∀ (s : State) (n : Notice) (ns : List Notice), s.sending = none → s.replies = [] →
          s.notices = n :: ns →
          s.transmit =
            { s with notices := if 0 < s.gap then ns ++ [.gap s.gap] else ns
                     gap := 0
                     sending := some ⟨(Frame.mk 13#4 0#4 n.kind n.body).chars, false⟩ })
      ∧ (∀ s : State, s.sending = none → s.replies = [] → s.notices = [] → s.transmit = s)
      ∧ ∀ (s : State) (f : Sending), s.held = false → s.sending = some f → f.restart = false →
          exec .transmitEnd s = .next (State.transmit { s with sending := none }))
  ∧
  (∀ (s : State) (n : Notice),
      (s.notices.length < 64 → s.queueNotice n = { s with notices := s.notices ++ [n] })
        ∧ (64 ≤ s.notices.length → s.queueNotice n =
            { s with
              gap := min 65535 (s.gap + 1)
              counters :=
                { s.counters with noticesLost := min 4294967295 (s.counters.noticesLost + 1) } }))
  ∧
  (∀ (tag close train shifted skipped k : Nat) (l : LockerId) (c scanned : Col) (late : Bool) (raw : List Byte)
      (reason : Reason) (fault : LockerFault) (state : ColState) (m : OpMode) (st : Stored),
      let carries (n : Notice) (kind : Byte) (fields : List (List Byte)) : Prop :=
        n.kind = kind ∧ n.body = fields.flatten
      let locker : List Byte := beBytes 1 (l.val + 1)
      let column (b : Col) : List Byte := beBytes 1 (b.val + 1)
      let small (n : Nat) : List Byte := beBytes 2 (min 65535 n)
      let order : List Byte := beBytes 4 tag
      carries (.loaded tag l close) 0x60#8 [order, locker, beBytes 4 close]
      ∧ carries (.released tag l) 0x61#8 [order, locker]
      ∧ carries (.collected tag l late) 0x62#8 [order, locker, [if late then 1#8 else 0#8]]
      ∧ carries (.returned tag l) 0x63#8 [order, locker] ∧ carries (.notOpened tag l) 0x64#8 [order, locker]
      ∧ carries (.expired tag reason (some l)) 0x65#8 [order, beBytes 1 reason.code, locker]
      ∧ carries (.expired tag reason none) 0x65#8 [order, beBytes 1 reason.code, [0#8]]
      ∧ carries (.discarded (some st) l) 0x66#8 [beBytes 4 st.tag, locker, beBytes 1 st.reason.code]
      ∧ carries (.discarded none l) 0x66#8 [beBytes 4 0, locker, [0#8]]
      ∧ carries (.lockerFault l fault) 0x67#8 [locker, beBytes 1 fault.code]
      ∧ carries (.columnState c state) 0x68#8 [column c, beBytes 1 state.code]
      ∧ carries (.lockout c k) 0x69#8 [column c, beBytes 2 k]
      ∧ carries (.doorHeld l .front) 0x6A#8 [locker, [0#8]] ∧ carries (.doorHeld l .back) 0x6A#8 [locker, [1#8]]
      ∧ carries (.loadRefused tag scanned (some c)) 0x6B#8 [order, column scanned, column c]
      ∧ carries (.loadRefused tag scanned none) 0x6B#8 [order, column scanned, [0#8]]
      ∧ carries (.shiftDone train shifted skipped) 0x6C#8 [beBytes 2 train, small shifted, small skipped]
      ∧ carries (.inventoryDone shifted skipped) 0x6D#8 [small shifted, small skipped]
      ∧ carries (.mode m) 0x6E#8 [beBytes 1 m.code] ∧ carries (.columnEvent c raw) 0x6F#8 [column c, raw]
      ∧ carries (.gap k) 0x70#8 [small k])
  ∧ (∀ width n : Nat, (beBytes width n).length = width
      ∧ ∀ i, i < width → (beBytes width n)[i]? = some (BitVec.ofNat 8 (n / 256 ^ (width - 1 - i))))
  ∧ List.map Reason.code [.notLoaded, .window, .hold, .cold, .latch, .fault, .tamper, .missing, .dropped]
      = [1, 2, 3, 4, 5, 6, 7, 8, 9]
  ∧ List.map LockerFault.code [.latch, .sensor, .overheat, .tamper, .purgeFail, .purgeStall] = [1, 2, 3, 4, 5, 6]
  ∧ (∀ u, List.map ColState.code [.unseen, .absent, .settling u, .active, .service, .lost] = [0, 1, 2, 3, 4, 5])
  ∧ List.map OpMode.code [.starting, .run, .drain] = [0, 1, 2]

/-- While the reply queue has no more free entries than PASS operations are outstanding, or a RESTART is
pending, no request is taken (11 R197, R207).
A kind that names no management request is answered UNKNOWN-KIND with no data (11 R197). -/
def Obligations.RequestsWaitAndUnknownKindsAreAnswered : Prop :=
  (∀ (s : State) (c : Instr), s.held = false →
      8 - s.replies.length ≤ s.passOutstanding ∨ s.restartPending = true →
      c ∈ [Instr.resPut, .resDrop, .resShift, .trainShift, .resRead, .clockSet, .lockerRead, .faultClear,
        .classSet, .columnSet, .purgeAbort, .rollCall, .columnRead, .filterSet, .modeSet, .statsRead,
        .restart, .unknownKind, .passThrough] →
      exec c s = .next s.transmit)
  ∧
  (∀ (s : State) (kind : Byte) (body : List Byte) (rest : List InboxFrame), s.HeadIs kind body rest →
      ¬(0x40 ≤ kind.toNat ∧ kind.toNat ≤ 0x50) →
      exec .unknownKind s = .next (s.answered rest (kind ||| 0x80#8) [0x4B#8]).transmit)

/-- FILTER-SET writes one entry of the Filter Table, or is answered BAD-FIELD and writes nothing (11 R200). The table
has one entry for kind 0x09 and one for each of 0x10 to 0x3F, and the actions have the codes of 07 Table 7-10. -/
def Obligations.FilterSetWritesOneEntry : Prop :=
  filterIndex 0x09#8 = some 0
  ∧ (∀ kind : Byte, 0x10 ≤ kind.toNat → kind.toNat ≤ 0x3F →
      (filterIndex kind).map Fin.val = some (kind.toNat - 0x0F))
  ∧ (∀ kind : Byte, kind ≠ 0x09#8 → ¬(0x10 ≤ kind.toNat ∧ kind.toNat ≤ 0x3F) → filterIndex kind = none)
  ∧ [0, 1, 2].map filterActionOf = [some .refuse, some .pass, some .passInService] ∧
  ∀ (s : State) (body : List Byte) (rest : List InboxFrame), s.HeadIs 0x4D#8 body rest →
    (body.length ≠ 3 → exec .filterSet s = .next (s.answered rest 0xCD#8 [0x47#8]).transmit)
      ∧ ∀ kind action multi : Byte, body = [kind, action, multi] →
          let has := kind = 0x09#8 ∨ 0x10 ≤ kind.toNat ∧ kind.toNat ≤ 0x3F
          let bad := ¬has ∨ 2 < action.toNat ∨ 1 < multi.toNat ∨ (kind = 0x09#8 ∧ multi = 1#8)
          (bad → exec .filterSet s = .next (s.answered rest 0xCD#8 [0x47#8]).transmit)
            ∧ ∀ (k : Fin 49) (a : FilterAction) (m : Bool), ¬bad → filterIndex kind = some k →
                filterActionOf action.toNat = some a → m = decide (multi = 1#8) →
                exec .filterSet s =
                  .next (State.transmit
                    { s.answered rest 0xCD#8 [0x40#8, action, multi] with
                      filter := s.filter.set k ⟨a, m⟩ })

/-- MODE-SET changes between RUN and DRAIN: BAD-FIELD for STARTING or no mode, NOT-NOW in STARTING, OK without
a change for the present mode, and else the change with its MODE notice and LINK_LED (11 R205, R204).
Nothing else changes. In DRAIN a RES-PUT is answered NOT-NOW and a BACK-SCAN BANK-CLOSING (11 Table 11-6). -/
def Obligations.ModeSetMovesBetweenRunAndDrain : Prop :=
  (∀ (s : State) (body : List Byte) (rest : List InboxFrame), s.HeadIs 0x4E#8 body rest →
    (body.length ≠ 1 → exec .modeSet s = .next (s.answered rest 0xCE#8 [0x47#8]).transmit)
      ∧ ∀ b : Byte, body = [b] →
          (b ≠ 1#8 → b ≠ 2#8 → exec .modeSet s = .next (s.answered rest 0xCE#8 [0x47#8]).transmit)
            ∧ (b = 1#8 ∨ b = 2#8 → s.mode = .starting →
                exec .modeSet s = .next (s.answered rest 0xCE#8 [0x4A#8]).transmit)
            ∧ (b = 1#8 ∧ s.mode = .run ∨ b = 2#8 ∧ s.mode = .drain →
                exec .modeSet s = .next (s.answered rest 0xCE#8 [0x40#8, b]).transmit)
            ∧ (b = 1#8 → s.mode = .drain → exec .modeSet s =
                .next (State.transmit (State.queueNotice
                  { s.answered rest 0xCE#8 [0x40#8, b] with mode := .run, ledLow := true } (.mode .run))))
            ∧ (b = 2#8 → s.mode = .run → exec .modeSet s =
                .next (State.transmit (State.queueNotice
                  { s.answered rest 0xCE#8 [0x40#8, b] with mode := .drain, ledLow := false }
                  (.mode .drain)))))
  ∧
  (∀ (s : State) (body : List Byte) (rest : List InboxFrame), s.mode = .drain → s.HeadIs 0x40#8 body rest →
      body.length = 20 → exec .resPut s = .next (s.answered rest 0xC0#8 [0x4A#8]).transmit)
  ∧
  (∀ (s : State) (c : Col) (tag : Nat), s.mode = .drain →
      s.backScan c tag = if s.reachable c then s.enqueue (panelOp c .back .bankClosing) else s)

/-- STATS-READ reports the eight counters, the mode and court time, and clears the counters when its mark is
set (11 R206). -/
def Obligations.StatsReadReportsAndClears : Prop :=
  ∀ (s : State) (body : List Byte) (rest : List InboxFrame), s.HeadIs 0x4F#8 body rest →
    let k := s.counters
    let report := beBytes 4 k.serverDiscarded ++ beBytes 4 k.columnDiscarded ++ beBytes 4 k.silent
      ++ beBytes 4 k.matched ++ beBytes 4 k.wrong ++ beBytes 4 k.releasesFailed ++ beBytes 4 k.expired
      ++ beBytes 4 k.noticesLost ++ u8 s.mode.code ++ s.courtBytes
    (body.length ≠ 1 → exec .statsRead s = .next (s.answered rest 0xCF#8 [0x47#8]).transmit)
      ∧ (∀ b : Byte, body = [b] → 1 < b.toNat →
          exec .statsRead s = .next (s.answered rest 0xCF#8 [0x47#8]).transmit)
      ∧ (body = [0#8] → exec .statsRead s = .next (s.answered rest 0xCF#8 (0x40#8 :: report)).transmit)
      ∧ (body = [1#8] → exec .statsRead s =
          .next (State.transmit
            { s.answered rest 0xCF#8 (0x40#8 :: report) with counters := ⟨0, 0, 0, 0, 0, 0, 0, 0⟩ }))

/-- RESTART is answered OK with the walk abandoned mark, ends a TRAIN-SHIFT walk, and is then pending; it takes
effect only at the end of its reply (11 R207, 01 R24). -/
def Obligations.RestartIsAnsweredAndPending : Prop :=
  ∀ (s : State) (body : List Byte) (rest : List InboxFrame), s.HeadIs 0x50#8 body rest →
    (body ≠ [] → exec .restart s = .next (s.answered rest 0xD0#8 [0x47#8]).transmit)
      ∧ (body = [] → exec .restart s =
          .next (State.transmit
            { s with
              inbox := rest
              replies := s.replies ++ [⟨0xD0#8, 0#4, [0x40#8, markByte s.shift.isSome], true⟩]
              shift := none, restartPending := true }))

/-- The end of the RESTART reply brings the RESTART into effect, whether it is told as TRANSMIT_END or as
RESTART_TAKES_EFFECT (log 9): inbox, replies, notices, gap count and Operation Queue are cleared, the
full-wall walk stands in entry 1, the mode is STARTING, every column is UNSEEN with its panel cleared and its
heat fields kept, and everything else stands (11 R208, 10 R195). An exchange in flight is abandoned: it stays on
the line, or, between two tries, ends at once with its column quiet from the end of the last try (08 R160,
log 16).
An abandoned exchange runs its course: the close of its window or its reply ends it with the quiet until of its
column alone, with no retry, no silence, no count of a SILENT exchange and no outcome; a corrupt frame is
counted; a broadcast or a POLL ends with the line released and its slots disregarded (08 R160, log 15). Internal time
stands when the reply ends, by the model's choice (log 36). -/
def Obligations.RestartTakesEffect : Prop :=
  (∀ (s : State) (f : Sending), s.held = false → s.sending = some f → f.restart = true →
    ∃ t : State, exec .restartTakesEffect s = .next t ∧ exec .transmitEnd s = .next t
      ∧ t = { s with
          inbox := [], replies := [], notices := [], gap := 0, sending := none, restartPending := false
          ops := [{ tag := 1, dest := .column 0, kind := 0x03#8, position := some 0, side := none
                    mode := .walk ⟨[], 0, [1, 2, 3, 4, 5, 6, 7], 0, .initial⟩
                    cls := .routine, origin := .roll, slot := none, inboxRef := none, body := []
                    notBefore := s.now, inFlight := false }]
          reserve := 0, streak := 0, mode := .starting, walkEnded := false
          clockMark := s.court.isSome, ledLow := false, columns := t.columns, shift := none
          exchange := t.exchange, released := t.released, columnRx := t.columnRx }
      ∧ (∀ c, t.column c =
          { s.column c with
            state := .unseen, silence := 0, walkPending := true, attention := false, walkOwed := false
            wrong := 0, lockout := none, quiet := (t.column c).quiet
            heatNext :=
              if (s.column c).state = .absent then some (s.now + 10000000) else (s.column c).heatNext })
      ∧ (s.exchange = none → t.exchange = none ∧ t.released = s.released ∧ t.columnRx = s.columnRx
          ∧ ∀ c, (t.column c).quiet = (s.column c).quiet)
      ∧ (∀ x, s.exchange = some x → (∀ w, x.stage ≠ .retryFrom w) →
          t.exchange = some { x with abandoned := true } ∧ t.released = s.released ∧ t.columnRx = s.columnRx
            ∧ ∀ c, (t.column c).quiet = (s.column c).quiet)
      ∧ ∀ x w c, s.exchange = some x → x.stage = .retryFrom w → x.dest = .column c →
          t.exchange = none ∧ t.released = some s.now ∧ t.columnRx = .hunting
            ∧ (t.column c).quiet = some (w + 10000) ∧ ∀ k, k ≠ c → (t.column k).quiet = (s.column k).quiet)
  ∧
  (∀ (s : State) (x : Exchange), s.held = false → s.exchange = some x → x.abandoned = true →
    let ended (t : Time) : State :=
      { s with now := t, exchange := none, released := some t, columnRx := .hunting, reserve := 0 }
    let quiet (t : Time) (c : Col) : State :=
      { ended t with columns := s.columns.set c { s.column c with quiet := some (t + 10000) } }
    (∀ c, x.dest = .column c → x.stage = .awaiting → s.columnRx = .hunting →
      exec .tryTimeout s = .next (quiet (max s.now (x.requestEnd + 8000)) c).transmit)
    ∧ (∀ c body fl chars, x.dest = .column c → x.stage = .awaiting → s.columnRx = .hunting →
        body.length ≤ 48 → bodyFlags body = some fl → minReply x.kind fl ≤ body.length →
        Carries chars (x.replyFrame c body).chars → gapsWithin .column chars = true → x.opensWith chars →
        exec (.columnReply chars) s = .next (quiet (heardBy .column s.now chars) c).transmit)
    ∧ (∀ c chars whole, s.Awaits x c → x.opensWith chars → Carries chars whole →
        Receiver.hunting.hear .column chars = (.hunting, [.complete whole]) → x.accepts c whole = none →
        let t := heardBy .column s.now chars
        let counts (u : State) : State :=
          { u with counters :=
              { s.counters with columnDiscarded := min 4294967295 (s.counters.columnDiscarded + 1) } }
        (t < x.requestEnd + 8000 →
          exec (.columnFrameCorrupt chars) s = .next (State.transmit (counts { s with now := t })))
        ∧ (x.requestEnd + 8000 ≤ t →
            exec (.columnFrameCorrupt chars) s = .next (counts (quiet t c)).transmit))
    ∧ (x.stage = .broadcast →
        exec .broadcastSent s = .next (ended (max s.now x.requestEnd)).transmit)
    ∧ ∀ chars, x.stage = .slots →
        exec (.pollEnd chars) s = .next (ended (max s.now (x.requestEnd + 8500))).transmit)

/-- A pass-through frame is refused, found unreachable, turned away or admitted by the first row of 11
Table 11-4 that fits; an admitted one becomes one ROUTINE operation at the tail of the queue
(11 R202, R201). A body's list is counted when its first byte is 1 to 8 and at least so many bytes follow (08 R157). -/
def Obligations.PassThroughIsAdmittedByTheTable : Prop :=
  (∀ c : Col, passDest (BitVec.ofNat 4 (c.val + 1)) = some (.column c)) ∧ passDest 15#4 = some .all
  ∧ countedItems [] = none
  ∧ (∀ (n : Byte) (items : List Byte), countedItems (n :: items) =
      if 1 ≤ n.toNat ∧ n.toNat ≤ 8 ∧ n.toNat ≤ items.length then some (items.take n.toNat) else none)
  ∧ ∀ (s : State) (d : Station) (kind : Byte) (body : List Byte) (rest : List InboxFrame) (dest : Dest),
    s.held = false → s.passOutstanding < 8 - s.replies.length → s.restartPending = false →
    s.inbox = ⟨d, kind, body⟩ :: rest → passDest d = some dest →
    let reply (code : Byte) : State :=
      { s with inbox := rest, replies := s.replies ++ [⟨kind ||| 0x80#8, d, [code], false⟩] }
    let refused := filterIndex kind = none ∨ ∃ k, filterIndex kind = some k ∧ (s.filter.get k).action = .refuse
    (refused → exec .passThrough s = .next (reply 0x4C#8).transmit)
    ∧ ∀ k, filterIndex kind = some k → (s.filter.get k).action ≠ .refuse →
      let e := s.filter.get k
      let away := ∃ c, dest = .column c ∧ ((s.column c).state = .absent ∨ (s.column c).state = .lost
        ∨ ((s.column c).state = .service ∧ e.action ≠ .passInService))
      let busy := 2 ≤ s.passOutstanding ∨ s.freeEntries = 0
      let short := e.multi = true ∧ countedItems body = none
      let mode : Mode := if dest ≠ .all ∧ e.multi = true then .counted 0 else .once
      (away → exec .passThrough s = .next (reply 0x4D#8).transmit)
        ∧ (¬away → busy → exec .passThrough s = .next (reply 0x42#8).transmit)
        ∧ (¬away → ¬busy → short → exec .passThrough s = .next (reply 0x47#8).transmit)
        ∧ (¬away → ¬busy → ¬short → exec .passThrough s =
            .next (State.transmit
              { s with
                inbox := rest
                ops := s.ops ++ [{ tag := s.lowestTag, dest := dest, kind := kind, position := none
                                   side := none, mode := mode, cls := .routine, origin := .pass
                                   slot := none, inboxRef := some ⟨kind, d⟩, body := body
                                   notBefore := s.now, inFlight := false }] }))

/-! ## Reservations and court time (chapter 1) -/

/-- RES-PUT is refused with the first status of R17 whose condition holds, a wrong body length first, and a
refused request writes nothing (01 R17, 07 R143, R144).
A RES-PUT that passes every test writes the lowest FREE slot as a BOOKED entry with the request's fields, and its
OK reply carries the slot; nothing else changes (01 R18, R3). A field is its bytes in place, high byte
first (07 R129, R143). -/
def Obligations.ResPutRefusesOrWritesTheLowestFreeSlot : Prop :=
  (∀ before field after : List Byte, fieldAt (before ++ field ++ after) before.length field.length = field)
  ∧ (∀ (bytes : List Byte) (off width : Nat),
      natAt bytes off width = (fieldAt bytes off width).foldl (fun n b => n * 256 + b.toNat) 0) ∧
  (∀ (s : State) (body : List Byte) (rest : List InboxFrame), s.HeadIs 0x40#8 body rest →
     let refuse (code : Byte) := exec .resPut s = .next (s.answered rest 0xC0#8 [code]).transmit
     let tag := natAt body 0 4
     let code := codeOf (fieldAt body 4 3)
     let hold := natAt body 18 2
     let bad (t : Nat) := tag = 0 ∨ code = none ∨ code = some 0 ∨ 4 ≤ natAt body 7 1
       ∨ natAt body 12 4 ≤ natAt body 8 4 ∨ natAt body 12 4 ≤ t
       ∨ ∃ c : ClassId, natAt body 7 1 = c.val ∧ (s.classes.get c = none
           ∨ ∃ k, s.classes.get c = some k ∧ hold ≠ 0 ∧ (hold < 600 ∨ k.holdLimit < hold))
     let taken := ∃ i r, s.entry i = some r ∧ (r.tag = tag ∨ some r.code = code)
     (body.length ≠ 20 → refuse 0x47#8)
       ∧ (body.length = 20 → s.mode = .drain ∨ s.court = none → refuse 0x4A#8)
       ∧ ∀ t, body.length = 20 → s.mode ≠ .drain → s.court = some t →
           (bad t → refuse 0x47#8)
             ∧ (¬bad t → taken → refuse 0x44#8)
             ∧ (¬bad t → ¬taken → (∀ i, s.entry i ≠ none) → refuse 0x43#8))
  ∧
  (∀ (s : State) (body : List Byte) (rest : List InboxFrame) (t code : Nat) (cls : ClassId)
       (k : FoodClass) (i : Slot),
     s.HeadIs 0x40#8 body rest → body.length = 20 → s.mode ≠ .drain → s.court = some t →
     natAt body 0 4 ≠ 0 → codeOf (fieldAt body 4 3) = some code → code ≠ 0 →
     natAt body 7 1 = cls.val → s.classes.get cls = some k → natAt body 8 4 < natAt body 12 4 →
     t < natAt body 12 4 →
     (natAt body 18 2 = 0 ∨ 600 ≤ natAt body 18 2 ∧ natAt body 18 2 ≤ k.holdLimit) →
     (∀ j r, s.entry j = some r → r.tag ≠ natAt body 0 4 ∧ r.code ≠ code) →
     s.entry i = none → (∀ j, j < i → s.entry j ≠ none) →
     exec .resPut s =
       .next (State.transmit
         { s.answered rest 0xC0#8 (0x40#8 :: u8 i.val) with
           entries := s.entries.set i (some
             { tag := natAt body 0 4, code := code, cls := cls, opens := natAt body 8 4
               closes := natAt body 12 4
               train := if natAt body 16 2 = 0 then none else some (natAt body 16 2)
               holdOverride := if natAt body 18 2 = 0 then none else some (natAt body 18 2)
               stage := .booked }) }))

/-- RES-DROP by the state of its entry: BOOKED becomes FREE, READY becomes FREE and its locker SPOILED with the
tag and DROPPED, the other states are IN-USE; a tag of 0 is BAD-FIELD, a tag not held NOT-FOUND. No notice is
queued and nothing else changes, in every operating mode (01 R19). -/
def Obligations.ResDropByEntryState : Prop :=
  ∀ (s : State) (body : List Byte) (rest : List InboxFrame), s.HeadIs 0x41#8 body rest → s.UniqueKeys →
    let tag := natAt body 0 4
    let gives (u : State) := exec .resDrop s = .next u.transmit
    (body.length ≠ 4 ∨ tag = 0 → gives (s.answered rest 0xC1#8 [0x47#8]))
      ∧ (body.length = 4 → tag ≠ 0 → (∀ i r, s.entry i = some r → r.tag ≠ tag) →
          gives (s.answered rest 0xC1#8 [0x45#8]))
      ∧ ∀ i r, body.length = 4 → tag ≠ 0 → s.entry i = some r → r.tag = tag →
          (r.stage = .booked →
            gives { s.answered rest 0xC1#8 [0x40#8] with entries := s.entries.set i none })
          ∧ (∀ l at_, r.stage = .ready l at_ →
              gives
                { s.answered rest 0xC1#8 [0x40#8] with
                  entries := s.entries.set i none
                  lockers := s.lockers.set l
                    { s.locker l with
                      state := .spoiled (some ⟨tag, .dropped⟩), demand := 0, refusals := 0 } })
          ∧ (r.stage ≠ .booked → (∀ l at_, r.stage ≠ .ready l at_) →
              gives (s.answered rest 0xC1#8 [0x46#8]))

/-- RES-SHIFT is tested in the order of R20, then writes open and close, the close of a READY entry limited to
its locker's hold deadline (CLIPPED when the limit applied), and the entry takes its window-close action if it
is now overdue (01 R20, R21, R7). -/
def Obligations.ResShiftMovesOneWindow : Prop :=
  ∀ (s : State) (body : List Byte) (rest : List InboxFrame), s.HeadIs 0x42#8 body rest → s.UniqueKeys →
    let tag := natAt body 0 4
    let newClose := natAt body 4 4
    let refuse (code : Byte) := exec .resShift s = .next (s.answered rest 0xC2#8 [code]).transmit
    (body.length ≠ 12 ∨ tag = 0 → refuse 0x47#8)
      ∧ (body.length = 12 → tag ≠ 0 → (∀ i r, s.entry i = some r → r.tag ≠ tag) → refuse 0x45#8)
      ∧ ∀ i r, body.length = 12 → tag ≠ 0 → s.entry i = some r → r.tag = tag →
          let opens := if natAt body 8 4 = 0 then r.opens else natAt body 8 4
          let atDoor := ∃ l t p, r.stage = .releasing l t p ∨ r.stage = .opened l t p
          (atDoor → refuse 0x46#8)
          ∧ (¬atDoor → newClose ≤ opens → refuse 0x47#8)
          ∧ ∀ close, ¬atDoor → opens < newClose →
              (∀ l t j m, r.stage = .ready l t → (s.locker l).state.meal = some (j, m) →
                close = min newClose m.deadline) →
              ((∀ l t j m, r.stage = .ready l t → (s.locker l).state.meal ≠ some (j, m)) →
                close = newClose) →
              exec .resShift s =
                .next (State.transmit
                  ((State.windowDue
                    { s with inbox := rest
                             entries := s.entries.set i
                               (some { r with opens := opens, closes := close }) } i).placeReply
                    ⟨0xC2#8, 0#4,
                      (if close < newClose then 0x48#8 else 0x40#8) :: (u8 i.val ++ beBytes 4 close),
                      false⟩))

/-- TRAIN-SHIFT is BAD-FIELD for train 0 or a delta outside -3600 to 7200, BUSY while a walk is in flight, and
otherwise ACCEPTED with a walk at slot 0 whose first visit is due in 1 ms; it is taken in every operating
mode, a delta of 0 included (01 R22, R23).
A visit of the TRAIN-SHIFT walk shifts a BOOKED, LOADING or READY entry of its train, counts a RELEASING or
OPEN one as skipped, leaves every other slot, and moves the cursor on; after slot 255 SHIFT-DONE is queued
and the walk ends (01 R23, R24, R7). -/
def Obligations.TrainShiftWalksTheSlots : Prop :=
  (∀ (s : State) (body : List Byte) (rest : List InboxFrame), s.HeadIs 0x43#8 body rest →
     let train := natAt body 0 2
     let delta := intOf16 (fieldAt body 2 2)
     let bad := body.length ≠ 4 ∨ train = 0 ∨ delta < -3600 ∨ 7200 < delta
     (bad → exec .trainShift s = .next (s.answered rest 0xC3#8 [0x47#8]).transmit)
       ∧ (¬bad → s.shift ≠ none →
           exec .trainShift s = .next (s.answered rest 0xC3#8 [0x42#8]).transmit)
       ∧ (¬bad → s.shift = none → exec .trainShift s =
           .next (State.transmit
             { s.answered rest 0xC3#8 [0x41#8] with
               shift := some ⟨train, delta, 0, 0, 0, s.now + 1000⟩ })))
  ∧
  (∀ (s : State) (w : ShiftWalk), s.held = false → s.shift = some w →
     let s1 : State := { s with now := max s.now w.next }
     let goOn (u : State) (w1 : ShiftWalk) : State :=
       if h : w.cursor.val + 1 < 256 then
         { u with shift := some { w1 with cursor := ⟨w.cursor.val + 1, h⟩, next := w.next + 1000 } }
       else State.queueNotice { u with shift := none } (.shiftDone w1.train w1.shifted w1.skipped)
     let move (v : Nat) : Nat := min 4294967295 ((v : Int) + w.delta).toNat
     ((∀ r, s.entry w.cursor = some r → r.train ≠ some w.train) →
         exec .trainShiftVisit s = .next (goOn s1 w).transmit)
       ∧ ∀ r, s.entry w.cursor = some r → r.train = some w.train →
           (∀ l t p, r.stage = .releasing l t p ∨ r.stage = .opened l t p →
             exec .trainShiftVisit s = .next (goOn s1 { w with skipped := w.skipped + 1 }).transmit)
           ∧ (r.stage = .booked ∨ (∃ l, r.stage = .loading l) →
               exec .trainShiftVisit s =
                 .next (State.transmit (goOn
                   ((s1.setEntry w.cursor
                     (some { r with opens := move r.opens, closes := move r.closes })).windowDue w.cursor)
                   { w with shifted := w.shifted + 1 })))
           ∧ (∀ l t j m, r.stage = .ready l t → (s.locker l).state.meal = some (j, m) →
               exec .trainShiftVisit s =
                 .next (State.transmit (goOn
                   ((s1.setEntry w.cursor
                     (some { r with opens := move r.opens
                                    closes := min (move r.closes) m.deadline })).windowDue w.cursor)
                   { w with shifted := w.shifted + 1 }))))

/-- RES-READ reports a slot, FREE or not, or the entry of a tag, with every field the entry's state has and zero
for the others; it changes no state (01 R25, 07 R146). The code is reported in the three bytes that
spell it (07 Table 7-9). -/
def Obligations.ResReadReportsAnEntry : Prop :=
  (∀ n, n < 1000000 → (codeBytes n).length = 3 ∧ codeOf (codeBytes n) = some n) ∧
  ∀ (s : State) (body : List Byte) (rest : List InboxFrame), s.HeadIs 0x44#8 body rest → s.UniqueKeys →
    let reply (data : List Byte) := exec .resRead s = .next (s.answered rest 0xC4#8 data).transmit
    (body.length ≠ 1 → body.length ≠ 4 → reply [0x47#8])
      ∧ (∀ b, body = [b] → reply (0x40#8 :: s.entryReport (Fin.ofNat 256 b.toNat)))
      ∧ (body.length = 4 → natAt body 0 4 = 0 → reply [0x47#8])
      ∧ (body.length = 4 → natAt body 0 4 ≠ 0 →
          (∀ i r, s.entry i = some r → r.tag ≠ natAt body 0 4) → reply [0x45#8])
      ∧ (∀ i r, body.length = 4 → natAt body 0 4 ≠ 0 → s.entry i = some r → r.tag = natAt body 0 4 →
          reply (0x40#8 :: s.entryReport i))
      ∧ ∀ i, (s.entryReport i).length = 33
          ∧ (s.entry i = none → s.entryReport i = u8 i.val ++ u8 0 ++ s.courtBytes ++ beBytes 26 0)
          ∧ ∀ r, s.entry i = some r →
              let report (state : Nat) (place : List Byte) :=
                s.entryReport i = u8 i.val ++ u8 state ++ s.courtBytes ++ beBytes 4 r.tag ++ codeBytes r.code
                  ++ u8 r.cls.val ++ beBytes 4 r.opens ++ beBytes 4 r.closes ++ beBytes 2 (r.train.getD 0)
                  ++ beBytes 2 (r.holdOverride.getD 0) ++ place
              let why (p : Option Reason) := u8 ((p.map Reason.code).getD 0)
              (r.stage = .booked → report 1 (beBytes 6 0))
                ∧ (∀ l, r.stage = .loading l → report 2 (u8 (l.val + 1) ++ beBytes 5 0))
                ∧ (∀ l at_, r.stage = .ready l at_ → report 3 (u8 (l.val + 1) ++ beBytes 4 at_ ++ u8 0))
                ∧ (∀ l at_ p, r.stage = .releasing l at_ p →
                    report 4 (u8 (l.val + 1) ++ beBytes 4 at_ ++ why p))
                ∧ ∀ l at_ p, r.stage = .opened l at_ p →
                    report 5 (u8 (l.val + 1) ++ beBytes 4 at_ ++ why p)

/-- CLOCK-SET: while court time is UNSET the value is taken and MI is told; a set court time is moved by at
most 300 seconds while an entry is outside FREE, and SKEW with the present court time otherwise; a value
taken is the court time, its first advance one second later (01 R9, R8).
The first value taken also writes the times held as UNSET: purge started is that value, rest until 120 s and settle
until 90 s after it, or, at the highest court time, where they fall due at once, the stall, the end of the rest and
the end of settling (06 R121, R126; 10 R184; 01 R8); and STARTING, once the initial walk has ended, becomes RUN with
LINK_LED low and its MODE notice, which goes before the notices of deadlines due with it by log 34 (11 R204).
At each second court time advances by one and stops at its highest value; while it is UNSET nothing
advances (01 R8). -/
def Obligations.CourtTimeIsSetAndAdvances : Prop :=
  (∀ (s : State) (body : List Byte) (rest : List InboxFrame), s.HeadIs 0x45#8 body rest →
      let v := natAt body 0 4
      let skew := ∃ t, s.court = some t ∧ (∃ i, s.entry i ≠ none) ∧ (t + 300 < v ∨ v + 300 < t)
      (body.length ≠ 4 → exec .clockSet s = .next (s.answered rest 0xC5#8 [0x47#8]).transmit)
        ∧ (body.length = 4 → skew → exec .clockSet s =
            .next (s.answered rest 0xC5#8 (0x49#8 :: s.courtBytes)).transmit)
        ∧ (body.length = 4 → ¬skew → ∃ u : State, exec .clockSet s = .next u.transmit
            ∧ u.court = some v ∧ u.courtNext = s.now + 1000000 ∧ u.now = s.now
            ∧ u.replies = s.replies ++ [⟨0xC5#8, 0#4, 0x40#8 :: beBytes 4 v, false⟩] ∧ u.inbox = rest
            ∧ u.classes = s.classes ∧ u.filter = s.filter ∧ u.shift = s.shift ∧ u.exchange = s.exchange
            ∧ u.pollNext = s.pollNext ∧ u.serverRx = s.serverRx ∧ u.columnRx = s.columnRx
            ∧ u.released = s.released ∧ u.pending = s.pending ∧ u.walkEnded = s.walkEnded
            ∧ (s.court ≠ none → u.mode = s.mode ∧ u.ledLow = s.ledLow ∧ u.clockMark = s.clockMark)
            ∧ (s.court = none → u.clockMark = true
              ∧ (¬(s.mode = .starting ∧ s.walkEnded = true) → u.mode = s.mode ∧ u.ledLow = s.ledLow)
              ∧ (s.mode = .starting → s.walkEnded = true → u.mode = .run ∧ u.ledLow = true
                ∧ (s.notices.length < 64 → s.notices ++ [.mode .run] <+: u.notices))
              ∧ (s.BindingLaw → ∀ l,
                  ((s.locker l).state = .purging none → (u.locker l).state =
                    if v < 4294967295 then .purging (some v) else .blocked .purgeStall none)
                  ∧ ((s.locker l).state = .purgeRest none → (u.locker l).state =
                    if v < 4294967295 then .purgeRest (some (min 4294967295 (v + 120))) else .purgeWait))
              ∧ ∀ c, (s.column c).state = .settling none → (u.column c).state =
                  if v < 4294967295 then .settling (some (min 4294967295 (v + 90))) else .active)))
  ∧
  (∀ s : State, s.held = false →
      (s.court = none → exec .courtTimeAdvance s = .next s.transmit)
        ∧ ∀ t, s.court = some t → exec .courtTimeAdvance s =
            .next (State.transmit
              { s with now := max s.now s.courtNext, court := some (min 4294967295 (t + 1))
                       courtNext := s.courtNext + 1000000 }))

/-- When a CLOCK-SET changes court time, every deadline at or before the new value is taken in that event,
whatever the order: no BOOKED or READY entry is left overdue, no HOLDING locker past its hold deadline, no
lockout, settle time, purge stall or rest whose time has come. No entry comes to be RELEASING or OPEN, and each that
is stays so at its locker and with its fields: an expiry pending stands; without one, WINDOW is kept only where its
close and HOLD only where its meal's hold deadline is at or before the new value, and one of them exactly where either
is (01 R10, R12, R14). -/
def Obligations.ClockSetLeavesNoDeadlineBehind : Prop :=
  ∀ (s : State) (body : List Byte) (rest : List InboxFrame), s.HeadIs 0x45#8 body rest → s.BindingLaw →
    body.length = 4 → s.court ≠ some (natAt body 0 4) →
    let v := natAt body 0 4
    let skew := ∃ t, s.court = some t ∧ (∃ i, s.entry i ≠ none) ∧ (t + 300 < v ∨ v + 300 < t)
    ¬skew → ∃ u : State, exec .clockSet s = .next u.transmit ∧ u.court = some v
      ∧ (∀ i r, u.entry i = some r → r.stage = .booked ∨ (∃ l t, r.stage = .ready l t) → v < r.closes)
      ∧ (∀ l i m, (u.locker l).state = .holding i m → v < m.deadline)
      ∧ (∀ i r l t p, s.entry i = some r →
          let closed := r.closes ≤ v
          let held := ∃ m, (s.locker l).state.meal = some (i, m) ∧ m.deadline ≤ v
          let keeps (q : Option Reason) : Prop :=
            (∀ why, p = some why → q = some why)
            ∧ (p = none → (closed ∨ held → q ≠ none)
              ∧ ∀ why, q = some why → why = .window ∧ closed ∨ why = .hold ∧ held)
          (r.stage = .releasing l t p → ∃ q, keeps q ∧ u.entry i = some { r with stage := .releasing l t q })
          ∧ (r.stage = .opened l t p → ∃ q, keeps q ∧ u.entry i = some { r with stage := .opened l t q }))
      ∧ (∀ i r l t q, u.entry i = some r →
          (r.stage = .releasing l t q → ∃ p, s.entry i = some { r with stage := .releasing l t p })
          ∧ (r.stage = .opened l t q → ∃ p, s.entry i = some { r with stage := .opened l t p }))
      ∧ (∀ l t, (u.locker l).state = .purging (some t) → v < min 4294967295 (t + 600))
      ∧ (∀ l t, (u.locker l).state = .purgeRest (some t) → v < t)
      ∧ (∀ c t, (u.column c).lockout = some t → v < t)
      ∧ ∀ c t, (u.column c).state = .settling (some t) → v < t

/-- The window-close action by entry state: BOOKED expires NOT-LOADED, LOADING is left, READY expires WINDOW
with its locker SPOILED, RELEASING and OPEN keep WINDOW as expiry pending unless one stands; an entry that is
not overdue is left (01 R12, R13, R14, R16).
A hold deadline that court time has reached brings HOLD: READY expires with its locker SPOILED, RELEASING
and OPEN keep HOLD as expiry pending unless one stands; earlier, or without a held meal, nothing happens
(05 R116, 01 R13, R14). -/
def Obligations.TimedReasonsByEntryState : Prop :=
  (∀ (s : State) (i : Slot), s.held = false →
      let gives (u : State) := exec (.windowClose i) s = .next u.transmit
      (s.entry i = none ∨ s.court = none → gives s)
        ∧ ∀ r t, s.entry i = some r → s.court = some t →
            (t < r.closes → gives s)
            ∧ (r.closes ≤ t → r.stage = .booked →
                gives ((s.setEntry i none).queueNotice (.expired r.tag .notLoaded none)))
            ∧ (∀ l, r.closes ≤ t → r.stage = .loading l → gives s)
            ∧ (∀ l at_, r.closes ≤ t → r.stage = .ready l at_ →
                gives (State.queueNotice
                  { s with
                    entries := s.entries.set i none
                    lockers := s.lockers.set l
                      { s.locker l with
                        state := .spoiled (some ⟨r.tag, .window⟩), demand := 0, refusals := 0 }
                    counters := { s.counters with expired := min 4294967295 (s.counters.expired + 1) } }
                  (.expired r.tag .window (some l))))
            ∧ (∀ l at_ p, r.closes ≤ t → r.stage = .releasing l at_ p →
                gives (s.setEntry i (some { r with stage := .releasing l at_ (some (p.getD .window)) })))
            ∧ ∀ l at_ p, r.closes ≤ t → r.stage = .opened l at_ p →
                gives (s.setEntry i (some { r with stage := .opened l at_ (some (p.getD .window)) })))
  ∧
  (∀ (s : State) (l : LockerId), s.held = false → s.BindingLaw →
      let gives (u : State) := exec (.holdDeadline l) s = .next u.transmit
      ((s.locker l).state.meal = none ∨ s.court = none → gives s)
        ∧ ∀ i m t r, (s.locker l).state.meal = some (i, m) → s.court = some t → s.entry i = some r →
            (t < m.deadline → gives s)
            ∧ (m.deadline ≤ t → (s.locker l).state = .holding i m →
                gives (State.queueNotice
                  { s with
                    entries := s.entries.set i none
                    lockers := s.lockers.set l
                      { s.locker l with
                        state := .spoiled (some ⟨r.tag, .hold⟩), demand := 0, refusals := 0 }
                    counters := { s.counters with expired := min 4294967295 (s.counters.expired + 1) } }
                  (.expired r.tag .hold (some l))))
            ∧ (∀ at_ p, m.deadline ≤ t → r.stage = .releasing l at_ p →
                gives (s.setEntry i (some { r with stage := .releasing l at_ (some (p.getD .hold)) })))
            ∧ ∀ at_ p, m.deadline ≤ t → r.stage = .opened l at_ p →
                gives (s.setEntry i (some { r with stage := .opened l at_ (some (p.getD .hold)) })))

/-! ## Lockers, purges and panels (chapters 2, 3, 6) -/

/-- LOCKER-READ and COLUMN-READ report one record and change nothing; a number out of range is BAD-FIELD. Every
byte of both reports is given: the fixed fields, the presence mask, each optional field at its full width or zero,
the door operation mark and court time (02 R50, 10 R194, 07 R146), named values by their codes (07 Table 7-10). The
rounding of milliseconds elapsed and
remaining is the model's choice (log 13). -/
def Obligations.ReadsReportAndChangeNothing : Prop :=
  (∀ (t u : Option Nat) (i : Slot) (m : Meal) (d : Door) (ph : Phase) (st : Option Stored) (f : LockerFault),
    List.map LockerState.code
        [.absent, .purgeWait, .purging t, .purgeRest u, .empty, .loading i ph d, .holding i m, .releasing i m,
          .opened i m d, .spoiled st, .clearing st ph d, .blocked f st]
      = [0, 1, 2, 3, 4, 5, 6, 7, 8, 9, 10, 11])
  ∧ [Phase.awaitLatch, .unlatched].map Phase.code = [1, 2]
  ∧ [Occupied.no, .yes, .unknown].map Occupied.code = [0, 1, 2]
  ∧ markByte false = 0#8 ∧ markByte true = 1#8
  ∧ (∀ s : State, s.courtBytes = match s.court with
      | none => [0#8, 0#8, 0#8, 0#8, 0#8]
      | some t => 1#8 :: beBytes 4 t) ∧
  ∀ (s : State) (body : List Byte) (rest : List InboxFrame),
    (s.HeadIs 0x46#8 body rest →
      ((body.length ≠ 1 ∨ natAt body 0 1 = 0 ∨ 64 < natAt body 0 1) →
        exec .lockerRead s = .next (s.answered rest 0xC6#8 [0x47#8]).transmit)
      ∧ ∀ l : LockerId, body.length = 1 → natAt body 0 1 = l.val + 1 →
          exec .lockerRead s = .next (s.answered rest 0xC6#8 (0x40#8 :: s.lockerReport l)).transmit)
    ∧ (s.HeadIs 0x4C#8 body rest →
      ((body.length ≠ 1 ∨ natAt body 0 1 = 0 ∨ 8 < natAt body 0 1) →
        exec .columnRead s = .next (s.answered rest 0xCC#8 [0x47#8]).transmit)
      ∧ ∀ c : Col, body.length = 1 → natAt body 0 1 = c.val + 1 →
          exec .columnRead s = .next (s.answered rest 0xCC#8 (0x40#8 :: s.columnReport c)).transmit)
    ∧ (∀ l,
        let lk := s.locker l
        let bit (b : Bool) (n : Nat) : Nat := if b then n else 0
        let meal (m : Meal) := beBytes 4 m.deadline ++ beBytes 4 (min 4294967295 m.cold)
        let since (d : Door) :=
          beBytes 4 (match d.since with | some t => min 4294967295 ((s.now - t) / 1000) | none => 0)
        let left (d : Door) :=
          beBytes 2 (match d.mask with | some t => (t - s.now + 999) / 1000 | none => 0)
        let door (d : Door) := since d ++ left d ++ beBytes 8 0
        let doorBits (d : Door) := bit d.since.isSome 256 + bit d.mask.isSome 512
        let kept (st : Option Stored) :=
          beBytes 4 ((st.map Stored.tag).getD 0) ++ u8 ((st.map fun t => t.reason.code).getD 0)
        let keptBits (st : Option Stored) := bit st.isSome 6
        let report (bits : Nat) (held times : List Byte) :=
          s.lockerReport l =
            u8 (l.val + 1) ++ u8 lk.state.code ++ u8 lk.rating ++ u8 lk.occupied.code ++ u8 lk.demand
              ++ u8 lk.refusals ++ beBytes 2 (bits + bit lk.lastTemp.isSome 128) ++ held
              ++ beInt16 (lk.lastTemp.getD 0) ++ times ++ markByte (s.doorBusy l) :: s.courtBytes
        (s.lockerReport l).length = 46
        ∧ (lk.state = .absent ∨ lk.state = .purgeWait ∨ lk.state = .empty ∨ lk.state = .purging none
            ∨ lk.state = .purgeRest none → report 0 (beBytes 16 0) (beBytes 14 0))
        ∧ (∀ t, lk.state = .purging (some t) →
            report 1024 (beBytes 16 0) (beBytes 6 0 ++ beBytes 4 t ++ beBytes 4 0))
        ∧ (∀ t, lk.state = .purgeRest (some t) → report 2048 (beBytes 16 0) (beBytes 10 0 ++ beBytes 4 t))
        ∧ (∀ i ph d, lk.state = .loading i ph d →
            report (17 + doorBits d) (u8 i.val ++ beBytes 6 0 ++ u8 ph.code ++ beBytes 8 0) (door d))
        ∧ (∀ i m, lk.state = .holding i m →
            report 97 (u8 i.val ++ beBytes 7 0 ++ meal m) (beBytes 14 0))
        ∧ (∀ i m, lk.state = .releasing i m →
            report 113 (u8 i.val ++ beBytes 6 0 ++ u8 1 ++ meal m) (beBytes 14 0))
        ∧ (∀ i m d, lk.state = .opened i m d →
            report (113 + doorBits d) (u8 i.val ++ beBytes 6 0 ++ u8 2 ++ meal m) (door d))
        ∧ (∀ st, lk.state = .spoiled st →
            report (keptBits st) (u8 0 ++ kept st ++ beBytes 10 0) (beBytes 14 0))
        ∧ (∀ st ph d, lk.state = .clearing st ph d →
            report (16 + keptBits st + doorBits d) (u8 0 ++ kept st ++ u8 0 ++ u8 ph.code ++ beBytes 8 0)
              (door d))
        ∧ ∀ f st, lk.state = .blocked f st →
            report (8 + keptBits st) (u8 0 ++ kept st ++ u8 f.code ++ beBytes 9 0) (beBytes 14 0))
    ∧ ∀ c,
        let col := s.column c
        let settle : Option Nat := match col.state with | .settling u => u | _ => none
        let bit (b : Bool) (n : Nat) : Nat := if b then n else 0
        (s.columnReport c).length = 32
        ∧ s.columnReport c =
            u8 (c.val + 1) ++ u8 col.state.code ++ u8 col.silence ++ [markByte col.walkPending]
              ++ [markByte col.attention] ++ u8 col.budget ++ u8 (col.pointer.val + 1)
              ++ allPos.flatMap (fun p => u8 (col.granted.get p)) ++ u8 col.wrong
              ++ beBytes 2 (bit settle.isSome 1 + bit col.pendingBudget.isSome 2 + bit col.lockout.isSome 4)
              ++ beBytes 4 (settle.getD 0) ++ beBytes 1 (col.pendingBudget.getD 0)
              ++ beBytes 4 (col.lockout.getD 0) ++ s.courtBytes

/-- FAULT-CLEAR moves a BLOCKED locker with occupied NO to PURGE-WAIT, and any other BLOCKED one to SPOILED with
its stored tag and reason; every other state is IN-USE. Nothing else changes (02 R51); that the OK reply alone
carries the state now held is log 14's.
PURGE-ABORT by the locker and its column: a PURGING locker of a reachable column is answered ACCEPTED with
one PURGE-ABORT outstanding, BUSY without room, UNREACHABLE out of reach; every other state is IN-USE. The
locker stays as it is (06 R124, R125, 09 R168). One is outstanding while the queue holds it (09 R171). -/
def Obligations.FaultClearAndPurgeAbortByLockerState : Prop :=
  (∀ (s : State) (l : LockerId), s.abortOutstanding l = true ↔
    ∃ op ∈ s.ops, op.kind = 0x07#8 ∧ op.origin = .purge ∧ op.dest = .column (lockerCol l)
      ∧ op.position = some (lockerPos l)) ∧
  (∀ (s : State) (body : List Byte) (rest : List InboxFrame), s.HeadIs 0x47#8 body rest →
     ((body.length ≠ 1 ∨ natAt body 0 1 = 0 ∨ 64 < natAt body 0 1) →
         exec .faultClear s = .next (s.answered rest 0xC7#8 [0x47#8]).transmit)
       ∧ ∀ l : LockerId, body.length = 1 → natAt body 0 1 = l.val + 1 →
           ((∀ f st, (s.locker l).state ≠ .blocked f st) →
               exec .faultClear s = .next (s.answered rest 0xC7#8 [0x46#8]).transmit)
           ∧ ∀ f st, (s.locker l).state = .blocked f st →
               ((s.locker l).occupied = .no → exec .faultClear s =
                 .next (State.transmit
                   { s.answered rest 0xC7#8 [0x40#8, 1#8] with
                     lockers := s.lockers.set l { s.locker l with state := .purgeWait } }))
               ∧ ((s.locker l).occupied ≠ .no → exec .faultClear s =
                   .next (State.transmit
                     { s.answered rest 0xC7#8 [0x40#8, 9#8] with
                       lockers := s.lockers.set l
                         { s.locker l with state := .spoiled st, demand := 0, refusals := 0 } })))
  ∧
  (∀ (s : State) (body : List Byte) (rest : List InboxFrame), s.HeadIs 0x4A#8 body rest →
     let refuse (code : Byte) := exec .purgeAbort s = .next (s.answered rest 0xCA#8 [code]).transmit
     ((body.length ≠ 1 ∨ natAt body 0 1 = 0 ∨ 64 < natAt body 0 1) → refuse 0x47#8)
       ∧ ∀ l : LockerId, body.length = 1 → natAt body 0 1 = l.val + 1 →
           ((∀ t, (s.locker l).state ≠ .purging t) → refuse 0x46#8)
           ∧ ∀ t, (s.locker l).state = .purging t →
               (s.reachable (lockerCol l) = false → refuse 0x4D#8)
               ∧ (s.reachable (lockerCol l) = true → s.abortOutstanding l = true → refuse 0x41#8)
               ∧ (s.reachable (lockerCol l) = true → s.abortOutstanding l = false → s.freeEntries = 0 →
                   refuse 0x42#8)
               ∧ (s.reachable (lockerCol l) = true → s.abortOutstanding l = false → 0 < s.freeEntries →
                   exec .purgeAbort s =
                     .next (State.transmit
                       { s.answered rest 0xCA#8 [0x41#8] with
                         ops := s.ops ++ [{ tag := s.lowestTag, dest := .column (lockerCol l)
                                            kind := 0x07#8, position := some (lockerPos l), side := none
                                            mode := .once, cls := .routine, origin := .purge, slot := none
                                            inboxRef := none, body := u8 ((lockerPos l).val + 1)
                                            notBefore := s.now, inFlight := false }] })))

/-- A door held 120 s at the back or 90 s at the front gives one DOOR-HELD notice for the stay; with no door
open since, or the notice given, nothing happens (02 R49; the mark that the notice was given is log 11). -/
def Obligations.DoorHeldIsReportedOnce : Prop :=
  ∀ (s : State) (l : LockerId) (d : Door), s.held = false → (s.locker l).state.door = some d →
    let gives (u : State) := exec (.doorHeld l) s = .next u.transmit
    (d.since = none ∨ d.reported = true → gives s)
      ∧ ∀ t, d.since = some t → d.reported = false →
          let told : Door := { d with reported := true }
          (∀ i ph, (s.locker l).state = .loading i ph d →
            gives (State.queueNotice
              { s with now := max s.now (t + 120000000)
                       lockers := s.lockers.set l { s.locker l with state := .loading i ph told } }
              (.doorHeld l .back)))
          ∧ (∀ st ph, (s.locker l).state = .clearing st ph d →
              gives (State.queueNotice
                { s with now := max s.now (t + 120000000)
                         lockers := s.lockers.set l { s.locker l with state := .clearing st ph told } }
                (.doorHeld l .back)))
          ∧ (∀ i m, (s.locker l).state = .opened i m d →
              gives (State.queueNotice
                { s with now := max s.now (t + 90000000)
                         lockers := s.lockers.set l { s.locker l with state := .opened i m told } }
                (.doorHeld l .front)))

/-- A purge that court time finds 600 s old blocks its locker PURGE-STALL with a LOCKER-FAULT notice and a
PURGE-ABORT; a rest that has ended makes its locker PURGE-WAIT; before their times, or held as UNSET, nothing
happens (06 R123, R125, R126; 02 R38, R40).
When court time reaches a panel's lockout until, the lockout is removed and the wrong count becomes 0; no
notice is sent and no message is shown (03 R59). When court time reaches a column's settle until, the column
becomes ACTIVE with its COLUMN-STATE notice (10 R184). Before, nothing happens. -/
def Obligations.CourtTimeDeadlinesFallDue : Prop :=
  (∀ (s : State) (l : LockerId) (now : Nat), s.held = false → s.court = some now →
      let lk := s.locker l
      (∀ t, lk.state = .purging (some t) →
        (now < min 4294967295 (t + 600) → exec (.purgeStall l) s = .next s.transmit)
        ∧ (min 4294967295 (t + 600) ≤ now → exec (.purgeStall l) s =
            .next (State.transmit (State.queueAbort
              (State.queueNotice
                { s with
                      lockers := s.lockers.set l
                        { lk with state := .blocked .purgeStall none, demand := 0, refusals := 0 } }
                (.lockerFault l .purgeStall)) l false))))
      ∧ (∀ t, lk.state = .purgeRest (some t) →
          (now < t → exec (.restEnd l) s = .next s.transmit)
          ∧ (t ≤ now → exec (.restEnd l) s =
              .next (State.transmit
                { s with lockers := s.lockers.set l { lk with state := .purgeWait } })))
      ∧ (lk.state = .purging none → exec (.purgeStall l) s = .next s.transmit)
      ∧ (lk.state = .purgeRest none → exec (.restEnd l) s = .next s.transmit))
  ∧
  (∀ (s : State) (c : Col) (now t : Nat), s.held = false → s.court = some now →
      let col := s.column c
      (col.lockout = some t →
        (now < t → exec (.lockoutEnd c) s = .next s.transmit)
        ∧ (t ≤ now → exec (.lockoutEnd c) s =
            .next (State.transmit
              { s with columns := s.columns.set c { col with lockout := none, wrong := 0 } })))
      ∧ (col.state = .settling (some t) →
          (now < t → exec (.settleEnd c) s = .next s.transmit)
          ∧ (t ≤ now → exec (.settleEnd c) s =
              .next (State.transmit (State.queueNotice
                { s with columns := s.columns.set c { col with state := .active } }
                (.columnState c .active)))))
      ∧ (col.lockout = none → exec (.lockoutEnd c) s = .next s.transmit)
      ∧ (col.state = .settling none → exec (.settleEnd c) s = .next s.transmit))

/-- A fault on a locker that is neither BLOCKED nor ABSENT blocks it with that fault, heat demand and refusals
0, occupied kept but for a tamper, and queues LOCKER-FAULT last; an unbound locker keeps its stored tag and
reason, and a purge that SENSOR, OVERHEAT or TAMPER stops has its PURGE-ABORT queued. A bound entry expires with
the fault's reason and leaves its tag where the meal could be inside; a load that fails to unlatch is undone
instead. A BLOCKED locker keeps its first fault, an ABSENT one takes none (02 R34, R38, R39, R40, Table 2-4). -/
def Obligations.FaultsBlockTheLocker : Prop :=
  ∀ (s : State) (l : LockerId) (f : LockerFault),
    let lk := s.locker l
    let seen := if f = .tamper then Occupied.unknown else lk.occupied
    let blocked (st : Option Stored) : State :=
      { s with
        lockers := s.lockers.set l
          { lk with state := .blocked f st, occupied := seen, demand := 0, refusals := 0 } }
    let ends (i : Slot) (r : Reservation) (why : Reason) (st : Option Stored) : State :=
      State.queueNotice
        (State.queueNotice
          { blocked st with
            entries := s.entries.set i none
            counters := { s.counters with expired := min 4294967295 (s.counters.expired + 1) } }
          (.expired r.tag why (some l)))
        (.lockerFault l f)
    let bound := f = .latch ∨ f = .sensor ∨ f = .overheat ∨ f = .tamper
    let why := if f = .latch then Reason.latch else if f = .tamper then .tamper else .fault
    (lk.state = .absent → s.takeFault l f = s)
      ∧ (∀ g st, lk.state = .blocked g st →
          s.takeFault l f = { s with lockers := s.lockers.set l { lk with occupied := seen } })
      ∧ (lk.state = .purgeWait ∨ (∃ t, lk.state = .purgeRest t) ∨ lk.state = .empty →
          s.takeFault l f = (blocked none).queueNotice (.lockerFault l f))
      ∧ (∀ st, lk.state = .spoiled st ∨ (∃ ph d, lk.state = .clearing st ph d) →
          s.takeFault l f = (blocked st).queueNotice (.lockerFault l f))
      ∧ (∀ t, lk.state = .purging t →
          s.takeFault l f =
            if f = .sensor ∨ f = .overheat ∨ f = .tamper then
              ((blocked none).queueAbort l false).queueNotice (.lockerFault l f)
            else (blocked none).queueNotice (.lockerFault l f))
      ∧ (∀ i m r at_, lk.state = .holding i m → s.entry i = some r → r.stage = .ready l at_ → bound →
          s.takeFault l f = ends i r why (some ⟨r.tag, why⟩))
      ∧ (∀ i m r at_ p, lk.state = .releasing i m → s.entry i = some r → r.stage = .releasing l at_ p → bound →
          s.takeFault l f = ends i r why (some ⟨r.tag, why⟩))
      ∧ (∀ i m d r at_ p, lk.state = .opened i m d → s.entry i = some r → r.stage = .opened l at_ p → bound →
          s.takeFault l f = ends i r why (some ⟨r.tag, why⟩))
      ∧ (∀ i ph d r, lk.state = .loading i ph d → s.entry i = some r → r.stage = .loading l → bound →
          f ≠ .latch →
          s.takeFault l f = ends i r why (if ph = .unlatched then some ⟨r.tag, why⟩ else none))
      ∧ ∀ i d r, lk.state = .loading i .awaitLatch d → s.entry i = some r → r.stage = .loading l → f = .latch →
          s.takeFault l f =
            if s.overdue r then
              State.queueNotice
                (State.queueNotice { blocked none with entries := s.entries.set i none }
                  (.expired r.tag .notLoaded none))
                (.lockerFault l f)
            else
              State.queueNotice
                { blocked none with entries := s.entries.set i (some { r with stage := .booked }) }
                (.lockerFault l f)

/-- The ends of a release (03 R69 to R72, 01 R15). A door or latch event of the front side first confirms the latch of
a RELEASING locker, without a bounce mask and with RELEASED queued before any other notice. A door closed empty frees
the entry, sends the locker to PURGE-WAIT and queues COLLECTED with the late mark; closed occupied, or relatched with
occupied as it was, it makes them READY and HOLDING again and queues RETURNED or NOT-OPENED, or, with an expiry
pending, the entry expires with it and the locker is SPOILED; an entry that is overdue when it enters READY expires
WINDOW after that notice (01 R12, log 10). A door opened writes door open since once and changes nothing else
(R68; 02 R44). Inside the bounce mask the door events of the side in use are disregarded, RELATCHED is not (02 R42).
On every side: for an ABSENT locker the events do nothing; for a side the state does not use a door opened is a tamper,
a door closed only writes occupied, RELATCHED does nothing (02 R41, R43, R45, R46). -/
def Obligations.FrontDoorEndsARelease : Prop :=
  (∀ (s : State) (l : LockerId) (i : Slot) (m : Meal) (r : Reservation) (at_ : Nat) (p : Option Reason),
    s.entry i = some r →
    let lk := s.locker l
    let put (e : Option Reservation) (v : Locker) : State :=
      { s with entries := s.entries.set i e, lockers := s.lockers.set l v }
    let tells (first : Bool) (u : State) (n : Notice) : State :=
      (if first then u.queueNotice (.released r.tag l) else u).queueNotice n
    let spoils (o : Occupied) (why : Reason) : State :=
      { put none
          { lk with state := .spoiled (some ⟨r.tag, why⟩), occupied := o, demand := 0, refusals := 0 } with
        counters := { s.counters with expired := min 4294967295 (s.counters.expired + 1) } }
    let collects (first : Bool) : State :=
      tells first (put none { lk with state := .purgeWait, occupied := .no }) (.collected r.tag l p.isSome)
    let returns (first : Bool) (o : Occupied) (n : Notice) (u : State) : Prop :=
      (p = none → ¬(∃ t, s.court = some t ∧ r.closes ≤ t) →
        u = tells first
          (put (some { r with stage := .ready l at_ }) { lk with state := .holding i m, occupied := o }) n)
      ∧ (p = none → (∃ t, s.court = some t ∧ r.closes ≤ t) →
          u = (tells first (spoils o .window) n).queueNotice (.expired r.tag .window (some l)))
      ∧ ∀ why, p = some why → why ≠ .notLoaded →
          u = tells first (spoils o why) (.expired r.tag why (some l))
    (lk.state = .releasing i m → r.stage = .releasing l at_ p →
      s.doorOpened l .front =
          (put (some { r with stage := .opened l at_ p })
            { lk with state := .opened i m ⟨some s.now, false, none⟩ }).queueNotice (.released r.tag l)
        ∧ s.doorClosed l .front false = collects true
        ∧ returns true .yes (.returned r.tag l) (s.doorClosed l .front true)
        ∧ returns true lk.occupied (.notOpened r.tag l) (s.relatched l .front))
    ∧ ∀ d, lk.state = .opened i m d → r.stage = .opened l at_ p →
        returns false lk.occupied (.notOpened r.tag l) (s.relatched l .front)
        ∧ ((∃ t, d.mask = some t ∧ s.now < t) →
            s.doorOpened l .front = s ∧ ∀ occ, s.doorClosed l .front occ = s)
        ∧ ((∀ t, d.mask = some t → t ≤ s.now) →
            (d.since = none → s.doorOpened l .front =
              { s with lockers :=
                  s.lockers.set l { lk with state := .opened i m { d with since := some s.now } } })
            ∧ (d.since ≠ none → s.doorOpened l .front = s)
            ∧ s.doorClosed l .front false = collects false
            ∧ returns false .yes (.returned r.tag l) (s.doorClosed l .front true)))
  ∧
  ∀ (s : State) (l : LockerId) (side : Side),
    let lk := s.locker l
    let used := match side with
      | .front => (∃ i m, lk.state = .releasing i m) ∨ ∃ i m d, lk.state = .opened i m d
      | .back => (∃ i ph d, lk.state = .loading i ph d) ∨ ∃ st ph d, lk.state = .clearing st ph d
    (lk.state = .absent →
      s.doorOpened l side = s ∧ (∀ occ, s.doorClosed l side occ = s) ∧ s.relatched l side = s)
    ∧ (lk.state ≠ .absent → ¬used →
        s.doorOpened l side = s.takeFault l .tamper
        ∧ (∀ occ, s.doorClosed l side occ =
            { s with lockers := s.lockers.set l { lk with occupied := if occ then .yes else .no } })
        ∧ s.relatched l side = s)

/-- The ends of a load: a back door closed occupied makes entry and locker READY and HOLDING with the hold
deadline written and the close limited to it, and queues LOADED while the close is ahead, or expires the entry
WINDOW with its locker SPOILED (04 R87, R88; 05 R115; 01 R7); closed empty, or relatched with occupied as it was, it
makes them BOOKED and EMPTY again, or expires the entry NOT-LOADED once its close has passed (04 R89). The ends of a
clearing: closed empty the locker goes to PURGE-WAIT with DISCARDED, closed occupied or relatched back to SPOILED with
its stored tag and reason (04 R93, R94). In both, a door or latch event first confirms a latch not yet confirmed, door
open since written at that moment and no bounce mask; a door opened does nothing else; and inside the bounce mask the
door events are disregarded, RELATCHED is not (02 R42, R44, 04 R86). -/
def Obligations.BackDoorEndsALoad : Prop :=
  (∀ (s : State) (l : LockerId) (i : Slot) (ph : Phase) (d : Door) (r : Reservation),
    s.entry i = some r → (s.locker l).state = .loading i ph d → r.stage = .loading l →
    let lk := s.locker l
    let put (e : Option Reservation) (v : Locker) : State :=
      { s with entries := s.entries.set i e, lockers := s.lockers.set l v }
    let late := ∃ t, s.court = some t ∧ r.closes ≤ t
    let undone (o : Occupied) (u : State) : Prop :=
      let v : Locker := { lk with state := .empty, occupied := o, demand := 0, refusals := 0 }
      (¬late → u = put (some { r with stage := .booked }) v)
      ∧ (late → u = (put none v).queueNotice (.expired r.tag .notLoaded none))
    undone lk.occupied (s.relatched l .back)
    ∧ ((∃ t, d.mask = some t ∧ s.now < t) → s.doorOpened l .back = s ∧ ∀ occ, s.doorClosed l .back occ = s)
    ∧ ((∀ t, d.mask = some t → t ≤ s.now) →
        (ph = .awaitLatch → s.doorOpened l .back =
          { s with lockers :=
              s.lockers.set l { lk with state := .loading i .unlatched ⟨some s.now, false, none⟩ } })
        ∧ (ph = .unlatched → s.doorOpened l .back = s)
        ∧ undone .no (s.doorClosed l .back false)
        ∧ ∀ k now, s.court = some now → s.classes.get r.cls = some k →
            let deadline := min 4294967295 (now + r.holdOverride.getD k.holdLimit)
            let close := min r.closes deadline
            (now < close →
              s.doorClosed l .back true =
                (put (some { r with stage := .ready l now, closes := close })
                  { lk with state := .holding i ⟨deadline, 0⟩, occupied := .yes }).queueNotice
                  (.loaded r.tag l close))
            ∧ (close ≤ now →
                s.doorClosed l .back true =
                  State.queueNotice
                    { put none
                        { lk with state := .spoiled (some ⟨r.tag, .window⟩), occupied := .yes, demand := 0
                                  refusals := 0 } with
                      counters := { s.counters with expired := min 4294967295 (s.counters.expired + 1) } }
                    (.expired r.tag .window (some l)))))
  ∧
  ∀ (s : State) (l : LockerId) (st : Option Stored) (ph : Phase) (d : Door),
    (s.locker l).state = .clearing st ph d →
    let lk := s.locker l
    let put (v : Locker) : State := { s with lockers := s.lockers.set l v }
    let kept (o : Occupied) : State :=
      put { lk with state := .spoiled st, occupied := o, demand := 0, refusals := 0 }
    s.relatched l .back = kept lk.occupied
    ∧ ((∃ t, d.mask = some t ∧ s.now < t) → s.doorOpened l .back = s ∧ ∀ occ, s.doorClosed l .back occ = s)
    ∧ ((∀ t, d.mask = some t → t ≤ s.now) →
        (ph = .awaitLatch → s.doorOpened l .back =
          put { lk with state := .clearing st .unlatched ⟨some s.now, false, none⟩ })
        ∧ (ph = .unlatched → s.doorOpened l .back = s)
        ∧ s.doorClosed l .back false =
            (put { lk with state := .purgeWait, occupied := .no }).queueNotice (.discarded st l)
        ∧ s.doorClosed l .back true = kept .yes)

/-- A CODE event at column c: in STARTING NOT-IN-SERVICE; a panel locked out shows LOCKED with the seconds left;
digits that no entry holds count as wrong and at the fifth lock the panel for 60 s with its LOCKOUT notice, a
lockout that ends at the highest court time ending at once; and the finding of an entry decides by the rows of
Table 3-2: NOT-READY, TOO-EARLY with the minutes left, GO-TO or SEE-COUNTER, IN-PROGRESS, and else the release with
its UNLATCH and then its OPEN message (03 R56 to R63, 01 R8).
An UNLATCH carries position and side, URGENT, UNTIL-MET with limit 6; a PANEL-SHOW carries side, message code and
argument, URGENT, ONCE; the codes 1 to 9 are the front messages in the order of Table 3-1 (03 R55, R63; 04 R81, R91; 07
R137). What the two bytes of LOCKED carry above 65,535 seconds is left open (log 30). A door operation is outstanding
while an UNLATCH of the locker is in the queue (02 R31). -/
def Obligations.CodesAreTakenAtThePanel : Prop :=
  (∀ (s : State) (c : Col) (digits : Option Nat),
    let col := s.column c
    let show_ (u : State) (m : Message) := u.enqueue (panelOp c .front m)
    let shows (m : Message) := s.codeEvent c digits = show_ s m
    let wrong (v : Column) : State :=
      { s with columns := s.columns.set c v
               counters := { s.counters with wrong := min 4294967295 (s.counters.wrong + 1) } }
    (s.mode = .starting → shows .notInService)
    ∧ (s.mode ≠ .starting →
      (∀ t now, col.lockout = some t → s.court = some now → now < t → shows (.locked (t - now)))
      ∧ (col.lockout = none → (∀ i r, s.entry i = some r → digits ≠ some r.code) →
          (col.wrong < 4 →
            s.codeEvent c digits =
              show_ (wrong { col with wrong := col.wrong + 1 }) (.wrongCode (4 - col.wrong)))
          ∧ (∀ now, 4 ≤ col.wrong → s.court = some now → now < 4294967295 →
              s.codeEvent c digits =
                (show_ (wrong { col with wrong := 5, lockout := some (min 4294967295 (now + 60)) })
                  (.locked 60)).queueNotice (.lockout c 60))
          ∧ (4 ≤ col.wrong → s.court = some 4294967295 →
              s.codeEvent c digits =
                (show_ (wrong { col with wrong := 0 }) (.locked 60)).queueNotice (.lockout c 60)))
      ∧ ∀ i r, col.lockout = none → s.UniqueKeys → s.entry i = some r → digits = some r.code →
          (r.stage = .booked ∨ (∃ l, r.stage = .loading l) → shows .notReady)
          ∧ ((∃ l at_ p, r.stage = .releasing l at_ p ∨ r.stage = .opened l at_ p) → shows .inProgress)
          ∧ ∀ l at_ now, r.stage = .ready l at_ → s.court = some now →
              (now < r.opens → shows (.tooEarly (min 999 ((r.opens - now + 59) / 60))))
              ∧ (r.opens ≤ now → lockerCol l ≠ c → s.reachable (lockerCol l) = true → shows (.goTo (lockerCol l)))
              ∧ (r.opens ≤ now → lockerCol l ≠ c → s.reachable (lockerCol l) = false → shows .seeCounter)
              ∧ (r.opens ≤ now → lockerCol l = c → s.doorBusy l = true → shows .inProgress)
              ∧ ∀ m, r.opens ≤ now → lockerCol l = c → s.doorBusy l = false →
                  (s.locker l).state = .holding i m →
                  s.codeEvent c digits =
                    { show_
                        (State.enqueue
                          { s with
                            entries := s.entries.set i (some { r with stage := .releasing l at_ none })
                            lockers := s.lockers.set l { s.locker l with state := .releasing i m } }
                          (unlatchOp l .front .collect (some i)))
                        (.open_ l) with
                      columns := s.columns.set c { col with wrong := 0 }
                      counters := { s.counters with matched := min 4294967295 (s.counters.matched + 1) } }))
  ∧ (∀ (l : LockerId) (side : Side) (origin : Origin) (slot : Option Slot),
      unlatchOp l side origin slot =
        { tag := 0, dest := .column (lockerCol l), kind := 0x04#8, position := some (lockerPos l)
          side := some side, mode := .untilMet 6 0, cls := .urgent, origin := origin, slot := slot
          inboxRef := none, notBefore := 0, inFlight := false
          body := [BitVec.ofNat 8 ((lockerPos l).val + 1), if side = .front then 0#8 else 1#8] })
  ∧ (∀ (c : Col) (side : Side) (m : Message),
      panelOp c side m =
        { tag := 0, dest := .column c, kind := 0x08#8, position := none, side := some side, mode := .once
          cls := .urgent, origin := .panel, slot := none, inboxRef := none, notBefore := 0, inFlight := false
          body := [if side = .front then 0#8 else 1#8, BitVec.ofNat 8 m.code.1,
            BitVec.ofNat 8 (m.code.2 / 256), BitVec.ofNat 8 m.code.2] })
  ∧ (∀ (s : State) (l : LockerId), s.doorBusy l = true ↔
      ∃ op ∈ s.ops, op.kind = 0x04#8 ∧ op.dest = .column (lockerCol l) ∧ op.position = some (lockerPos l)
        ∧ (op.origin = .collect ∨ op.origin = .load ∨ op.origin = .clear))
  ∧ (∀ l, Message.code (.open_ l) = (1, l.val + 1)) ∧ (∀ n, Message.code (.wrongCode n) = (2, n))
  ∧ (∀ n, n < 65536 → Message.code (.locked n) = (3, n)) ∧ (∀ n, (Message.code (.locked n)).1 = 3)
  ∧ Message.code .notReady = (4, 0) ∧ (∀ n, Message.code (.tooEarly n) = (5, n))
  ∧ (∀ c, Message.code (.goTo c) = (6, c.val + 1)) ∧ Message.code .inProgress = (7, 0)
  ∧ Message.code .notInService = (8, 0) ∧ Message.code .seeCounter = (9, 0)

/-- BACK-SCAN and BACK-CLEAR at column c; every message goes to the back panel, and only while the column is SETTLING
or ACTIVE (04 R75). A BACK-SCAN is answered NOT-IN-SERVICE in STARTING and BANK-CLOSING in DRAIN, and in RUN by the
rows of Table 4-2: UNKNOWN-TICKET; LOAD again, or IN-PROGRESS in another column, for a LOADING entry; ALREADY-LOADED;
and for a BOOKED one the allocation (04 R76 to R78). That binds the candidate of the scanned column with the lowest
position: entry and locker become LOADING, the heat demand is the class's units, and the UNLATCH BACK and then the LOAD
message are queued. With no candidate there, the other columns are tried in order of distance, the lower-numbered
first, and LOAD-REFUSED names the first that has one, or none (04 R79, R80, R81).
A BACK-CLEAR starts a clearing of a SPOILED locker, or of a BLOCKED one whose fault is not LATCH and whose occupied is
not NO, in a reachable column without a walk pending and with no door operation outstanding: CLEARING with its stored
tag and reason, and the UNLATCH BACK and then the CLEAR message queued. Otherwise it is CLEAR-REFUSED (04 R90, R91).
The back messages that Table 3-1 does not list have the codes 10 to 17 (07 R137). -/
def Obligations.BackScansAllocate : Prop :=
  (∀ (s : State) (c : Col) (tag : Nat),
    let shows (u : State) (m : Message) : State :=
      if s.reachable c = true then u.enqueue (panelOp c .back m) else u
    let answers (m : Message) : Prop := s.backScan c tag = shows s m
    (s.mode = .starting → answers .notInService)
    ∧ (s.mode = .drain → answers .bankClosing)
    ∧ (s.mode = .run → (∀ i r, s.entry i = some r → r.tag ≠ tag) → answers .unknownTicket)
    ∧ ∀ i r, s.mode = .run → s.UniqueKeys → s.entry i = some r → r.tag = tag →
        (∀ l, r.stage = .loading l →
          (lockerCol l = c → answers (.load l)) ∧ (lockerCol l ≠ c → answers .inProgress))
        ∧ (∀ l at_ p, r.stage = .ready l at_ ∨ r.stage = .releasing l at_ p ∨ r.stage = .opened l at_ p →
            answers (.alreadyLoaded l))
        ∧ ∀ k, r.stage = .booked → s.classes.get r.cls = some k →
            let fit (l : LockerId) := (s.locker l).state = .empty ∧ k.rating ≤ (s.locker l).rating
              ∧ s.doorBusy l = false ∧ s.reachable (lockerCol l) = true
              ∧ (s.column (lockerCol l)).walkPending = false
            (∀ l, lockerCol l = c → fit l → (∀ q, lockerCol q = c → lockerPos q < lockerPos l → ¬fit q) →
              s.backScan c tag =
                State.enqueue
                  (State.enqueue
                    { s with
                      entries := s.entries.set i (some { r with stage := .loading l })
                      lockers := s.lockers.set l
                        { s.locker l with
                          state := .loading i .awaitLatch ⟨none, false, none⟩, demand := k.units
                          refusals := 0 } }
                    (unlatchOp l .back .load (some i)))
                  (panelOp c .back (.load l)))
            ∧ (∀ before b after, (∀ l, lockerCol l = c → ¬fit l) →
                othersByDistance c = before ++ b :: after →
                (∀ a ∈ before, ∀ l, lockerCol l = a → ¬fit l) → (∃ l, lockerCol l = b ∧ fit l) →
                s.backScan c tag = (shows s (.goTo b)).queueNotice (.loadRefused tag c (some b)))
            ∧ ((∀ l, ¬fit l) →
                s.backScan c tag = (shows s .noLocker).queueNotice (.loadRefused tag c none)))
  ∧ (∀ c : Col,
      let far (k : Col) : Nat := max c.val k.val - min c.val k.val
      (∀ k, k ∈ othersByDistance c ↔ k ≠ c)
        ∧ (othersByDistance c).Pairwise fun a b => far a < far b ∨ far a = far b ∧ a < b)
  ∧ (∀ (s : State) (c : Col) (n : Nat),
      let refused : State :=
        if s.reachable c = true then s.enqueue (panelOp c .back .clearRefused) else s
      (n = 0 ∨ 8 < n → s.backClear c n = refused)
      ∧ ∀ l, lockerCol l = c → n = (lockerPos l).val + 1 →
          let lk := s.locker l
          let may := s.reachable c = true ∧ (s.column c).walkPending = false ∧ s.doorBusy l = false
            ∧ ((∃ st, lk.state = .spoiled st)
              ∨ ∃ f st, lk.state = .blocked f st ∧ f ≠ .latch ∧ lk.occupied ≠ .no)
          (¬may → s.backClear c n = refused)
          ∧ ∀ st, may → (lk.state = .spoiled st ∨ ∃ f, lk.state = .blocked f st) →
              s.backClear c n =
                State.enqueue
                  (State.enqueue
                    { s with
                      lockers := s.lockers.set l
                        { lk with state := .clearing st .awaitLatch ⟨none, false, none⟩ } }
                    (unlatchOp l .back .clear none))
                  (panelOp c .back (.clear l)))
  ∧ (∀ l, Message.code (.load l) = (10, l.val + 1) ∧ Message.code (.alreadyLoaded l) = (12, l.val + 1)
      ∧ Message.code (.latchFault l) = (15, l.val + 1) ∧ Message.code (.clear l) = (16, l.val + 1))
  ∧ Message.code .unknownTicket = (11, 0) ∧ Message.code .noLocker = (13, 0)
  ∧ Message.code .bankClosing = (14, 0) ∧ Message.code .clearRefused = (17, 0)

/-! ## Heat (chapter 5) -/

/-- CLASS-SET writes one class record: BAD-FIELD for a field out of its range, IN-USE while an entry outside
FREE names the class, and else OK with the record as now held, nothing else changed (05 R98, R97).
COLUMN-SET stores a budget of 3 to 24 as the column's pending budget and leaves the effective one; the
reply carries both. Anything else is BAD-FIELD and writes nothing (05 R100). A temperature is two bytes in
two's complement (07 Table 7-9). -/
def Obligations.ClassesAndBudgetsAreSet : Prop :=
  (∀ hi lo : Byte, intOf16 [hi, lo] = (hi ++ lo : BitVec 16).toInt)
  ∧ (∀ v : Int, beInt16 v = beBytes 2 (v % 65536).toNat) ∧
  (∀ (s : State) (body : List Byte) (rest : List InboxFrame), s.HeadIs 0x48#8 body rest →
      let refuse (code : Byte) := exec .classSet s = .next (s.answered rest 0xC8#8 [code]).transmit
      let enabled := natAt body 1 1
      let q : FoodClass :=
        ⟨natAt body 2 1, intOf16 (fieldAt body 3 2), intOf16 (fieldAt body 5 2), natAt body 7 2,
          natAt body 9 2, natAt body 11 1⟩
      let inside := q.rating ≤ 3 ∧ 400 ≤ q.target ∧ q.target ≤ 1000 ∧ 200 ≤ q.minimum
        ∧ q.minimum < q.target ∧ 600 ≤ q.holdLimit ∧ q.holdLimit ≤ 14400 ∧ 10 ≤ q.coldAllowance
        ∧ q.coldAllowance ≤ 3600 ∧ 1 ≤ q.units ∧ q.units ≤ 3
      (body.length ≠ 12 ∨ 4 ≤ natAt body 0 1 ∨ 1 < enabled ∨ enabled = 1 ∧ ¬inside → refuse 0x47#8)
        ∧ ∀ k : ClassId, body.length = 12 → natAt body 0 1 = k.val →
            (enabled = 0 ∨ enabled = 1 ∧ inside) →
            ((∃ i r, s.entry i = some r ∧ r.cls = k) → refuse 0x46#8)
            ∧ ((∀ i r, s.entry i = some r → r.cls ≠ k) →
                (enabled = 0 → exec .classSet s =
                  .next (State.transmit
                    { s.answered rest 0xC8#8 (0x40#8 :: beBytes 11 0) with
                      classes := s.classes.set k none }))
                ∧ (enabled = 1 → exec .classSet s =
                    .next (State.transmit
                      { s.answered rest 0xC8#8
                          (0x40#8 :: 1#8 :: (u8 q.rating ++ beInt16 q.target ++ beInt16 q.minimum
                            ++ beBytes 2 q.holdLimit ++ beBytes 2 q.coldAllowance ++ u8 q.units)) with
                        classes := s.classes.set k (some q) }))))
  ∧
  (∀ (s : State) (body : List Byte) (rest : List InboxFrame), s.HeadIs 0x49#8 body rest →
      let n := natAt body 0 1
      let budget := natAt body 1 1
      (body.length ≠ 2 ∨ n = 0 ∨ 8 < n ∨ budget < 3 ∨ 24 < budget →
          exec .columnSet s = .next (s.answered rest 0xC9#8 [0x47#8]).transmit)
        ∧ ∀ c : Col, body.length = 2 → n = c.val + 1 → 3 ≤ budget → budget ≤ 24 →
            exec .columnSet s =
              .next (State.transmit
                { s.answered rest 0xC9#8 (0x40#8 :: (u8 (s.column c).budget ++ u8 budget)) with
                  columns := s.columns.set c { s.column c with pendingBudget := some budget } }))

/-- A heat period: the pending budget is taken into use and the timer set 10,000 ms on; the demand of every locker
but an ABSENT one is written by Table 5-4; the units are granted in the four steps of R103, each a whole demand that
still fits, and recorded with the pointer; the refusals follow the grants; each locker granted in step 4 has its
PURGE-START queued, in position order and while the queue has room (05 R101 to R104, R106). Then a reachable column
is sent its HEAT-SET: its values go into one that waits, or a new one is queued; without one of its own the period
is blind (05 R105, R113). That the PURGE-STARTs of a period stand before its HEAT-SET in arrival order is the model's
reading (log 19). Nothing else changes. Lockers are numbered by column and position (00_scope 5.1), a column is
reachable in SETTLING and ACTIVE, and a PURGE-START is outstanding while the queue holds it (09 R171). -/
def Obligations.HeatPeriodSharesTheBudget : Prop :=
  (∀ (c : Col) (p : Pos), (lockerAt c p).val = c.val * 8 + p.val ∧ lockerCol (lockerAt c p) = c
    ∧ lockerPos (lockerAt c p) = p)
  ∧ (∀ (s : State) (l : LockerId), s.startOutstanding l = true ↔
      ∃ op ∈ s.ops, op.kind = 0x06#8 ∧ op.origin = .purge ∧ op.dest = .column (lockerCol l)
        ∧ op.position = some (lockerPos l))
  ∧ (∀ (s : State) (c : Col), s.workable c = true ↔ s.reachable c = true ∧ (s.column c).walkPending = false)
  ∧ (∀ (s : State) (c : Col), s.reachable c = true ↔
      (∃ u, (s.column c).state = .settling u) ∨ (s.column c).state = .active)
  ∧ (∀ l : LockerId, purgeOp 0x06#8 l =
      { tag := 0, dest := .column (lockerCol l), kind := 0x06#8, position := some (lockerPos l), side := none
        mode := .once, cls := .routine, origin := .purge, slot := none, inboxRef := none
        body := u8 ((lockerPos l).val + 1), notBefore := 0, inFlight := false })
  ∧ (∀ (s : State) (c : Col), s.held = false → (s.column c).heatNext = none →
    exec (.heatPeriodExpiry c) s = .next s.transmit)
  ∧ (∀ (s : State) (c : Col) (t : Time), s.held = false → (s.column c).heatNext = some t →
    let col := s.column c
    let lk (p : Pos) := s.locker (lockerAt c p)
    let budget := col.pendingBudget.getD col.budget
    let want (p : Pos) : Nat := if (lk p).state = .absent then (lk p).demand else s.demandOf (lockerAt c p)
    let started (p : Pos) := s.startOutstanding (lockerAt c p)
    let purges (p : Pos) : Bool :=
      match (lk p).state with
      | .purging _ => true
      | .purgeWait => started p
      | _ => false
    let warms (p : Pos) : Bool :=
      match (lk p).state with
      | .holding _ _ => decide (0 < want p)
      | .loading _ _ _ => decide (0 < want p)
      | _ => false
    let awaits (p : Pos) : Bool := decide ((lk p).state = .purgeWait) && !started p && s.workable c
    ∃ (g1 g2 g3 g4 : Pos → Nat) (left1 left2 left3 left4 : Nat) (last : Option Pos) (starts : List Pos)
        (v : State),
      ([0, 1, 2, 3, 4, 5, 6, 7] : List Pos).foldl
          (fun (x : Nat × (Pos → Nat)) p =>
            if purges p ∧ 3 ≤ x.1 then (x.1 - 3, Function.update x.2 p 3) else x)
          (budget, fun _ => 0) = (left1, g1)
      ∧ ([0, 1, 2, 3, 4, 5, 6, 7] : List Pos).foldl
          (fun (x : Nat × (Pos → Nat)) p =>
            if warms p ∧ (lk p).refusals = 6 ∧ want p ≤ x.1 then (x.1 - want p, Function.update x.2 p (want p))
            else x)
          (left1, g1) = (left2, g2)
      ∧ (([1, 2, 3, 4, 5, 6, 7, 8] : List Nat).map fun k => col.pointer + Fin.ofNat 8 k).foldl
          (fun (x : Nat × (Pos → Nat) × Option Pos) p =>
            if warms p ∧ x.2.1 p = 0 ∧ want p ≤ x.1 then
              (x.1 - want p, Function.update x.2.1 p (want p), some p)
            else x)
          (left2, g2, none) = (left3, g3, last)
      ∧ ([0, 1, 2, 3, 4, 5, 6, 7] : List Pos).foldl
          (fun (x : Nat × (Pos → Nat) × List Pos) p =>
            if awaits p ∧ 3 ≤ x.1 ∧ x.2.2.length < s.freeEntries then
              (x.1 - 3, Function.update x.2.1 p 3, x.2.2 ++ [p])
            else x)
          (left3, g3, []) = (left4, g4, starts)
      ∧ (List.map g4 [0, 1, 2, 3, 4, 5, 6, 7]).sum ≤ budget
      ∧ v = { s with
          now := max s.now t
          columns := s.columns.set c
            { col with
              budget := budget, pendingBudget := none, heatNext := some (t + 10000000)
              granted := (v.column c).granted, pointer := last.getD col.pointer }
          lockers := v.lockers
          ops := (starts.foldl (fun u p => u.enqueue (purgeOp 0x06#8 (lockerAt c p)))
            ({ s with now := max s.now t } : State)).ops }
      ∧ (∀ p, (v.column c).granted.get p = g4 p)
      ∧ (∀ p, v.locker (lockerAt c p) =
          { lk p with
            demand := want p
            refusals := if want p = 0 ∨ 0 < g4 p then 0 else min 6 ((lk p).refusals + 1) })
      ∧ (∀ l, lockerCol l ≠ c → v.locker l = s.locker l)
      ∧ let duties := ([0, 1, 2, 3, 4, 5, 6, 7] : List Pos).flatMap fun p => u8 (g4 p)
        let waits (op : Op) : Bool := decide (op.origin = .heat ∧ op.dest = .column c) && !op.inFlight
        exec (.heatPeriodExpiry c) s = .next (State.transmit (
          if s.reachable c = true then
            if s.ops.any waits then
              State.blindPeriod
                { v with ops := v.ops.map fun op => if waits op then { op with body := duties } else op } c
            else if v.freeEntries = 0 then v.blindPeriod c
            else
              v.enqueue
                { tag := 0, dest := .column c, kind := 0x05#8, position := none, side := none, mode := .once
                  cls := .routine, origin := .heat, slot := none, inboxRef := none, body := duties
                  notBefore := 0, inFlight := false }
          else v.blindPeriod c)))
  ∧ ∀ (s : State) (l : LockerId),
      let lk := s.locker l
      (∀ i m r k, lk.state = .holding i m → s.entry i = some r → s.classes.get r.cls = some k →
        s.demandOf l =
          match lk.lastTemp with
          | none => k.units
          | some t => if t < k.target then k.units else 0)
      ∧ (∀ i ph d r k, lk.state = .loading i ph d → s.entry i = some r → s.classes.get r.cls = some k →
          s.demandOf l = k.units)
      ∧ (∀ u, lk.state = .purging u → s.demandOf l = 3)
      ∧ (lk.state = .purgeWait → s.demandOf l = if s.startOutstanding l then 3 else 0)
      ∧ ((∀ i m, lk.state ≠ .holding i m) → (∀ i ph d, lk.state ≠ .loading i ph d) →
          (∀ u, lk.state ≠ .purging u) → lk.state ≠ .purgeWait → s.demandOf l = 0)

/-- A reading of a HEAT-SET reply for a locker outside settling (05 R108 to R112, R114). A good value is written as last
temperature. Above the overheat limit of Table 5-5, the class target + 20.0 degrees for a bound locker and 110.0 for
any other, it is the fault OVERHEAT, but for a BLOCKED locker. Below the class minimum it adds 10 cold seconds to a
held meal (HOLDING, RELEASING, OPEN), and above the cold allowance a HOLDING locker's entry expires COLD and a
RELEASING or OPEN one's has COLD as expiry pending unless one stands. A faulty reading is the fault SENSOR. During
settling a good value is only written and a faulty one does nothing; an ABSENT locker's reading does nothing at all.
A reading is good when its mark is 1 and its value lies within -20.0 to +130.0 degrees (R108). -/
def Obligations.ReadingsJudgeTheHeldMeal : Prop :=
  (∀ (s : State) (l : LockerId),
    let c := lockerCol l
    let lk := s.locker l
    let put (v : Locker) : State := { s with lockers := s.lockers.set l v }
    let hot (t : Int) : State := put { lk with lastTemp := some t }
    let settles := ∃ u, (s.column c).state = .settling u
    let judged := lk.state ≠ .absent ∧ ¬settles
    (lk.state = .absent → ∀ reading, s.takeReading c l reading = s)
    ∧ (lk.state ≠ .absent → settles →
        s.takeReading c l none = s ∧ ∀ t, s.takeReading c l (some t) = hot t)
    ∧ (judged → s.takeReading c l none = s.takeFault l .sensor)
    ∧ (∀ f st t, judged → lk.state = .blocked f st → s.takeReading c l (some t) = hot t)
    ∧ (∀ t, judged → lk.state.slot = none → (∀ f st, lk.state ≠ .blocked f st) →
        s.takeReading c l (some t) = if 1100 < t then (hot t).takeFault l .overheat else hot t)
    ∧ ∀ i r k t, judged → lk.state.slot = some i → s.entry i = some r → s.classes.get r.cls = some k →
        let cold (st : LockerState) (g : Stage) : State :=
          { put { lk with lastTemp := some t, state := st } with
            entries := s.entries.set i (some { r with stage := g }) }
        (k.target + 200 < t → s.takeReading c l (some t) = (hot t).takeFault l .overheat)
        ∧ (t ≤ k.target + 200 → k.minimum ≤ t ∨ (∃ ph d, lk.state = .loading i ph d) →
            s.takeReading c l (some t) = hot t)
        ∧ ∀ m, t ≤ k.target + 200 → t < k.minimum → lk.state.meal = some (i, m) →
            let more : Meal := ⟨m.deadline, m.cold + 10⟩
            (more.cold ≤ k.coldAllowance →
              s.takeReading c l (some t) = put { lk with lastTemp := some t, state := lk.state.withMeal more })
            ∧ (k.coldAllowance < more.cold →
                (∀ at_, lk.state = .holding i m → r.stage = .ready l at_ →
                  s.takeReading c l (some t) =
                    State.queueNotice
                      { put { lk with lastTemp := some t, state := .spoiled (some ⟨r.tag, .cold⟩)
                                      demand := 0, refusals := 0 } with
                        entries := s.entries.set i none
                        counters :=
                          { s.counters with expired := min 4294967295 (s.counters.expired + 1) } }
                      (.expired r.tag .cold (some l)))
                ∧ (∀ at_ p, lk.state = .releasing i m → r.stage = .releasing l at_ p →
                    s.takeReading c l (some t) =
                      cold (.releasing i more) (.releasing l at_ (some (p.getD .cold))))
                ∧ ∀ d at_ p, lk.state = .opened i m d → r.stage = .opened l at_ p →
                    s.takeReading c l (some t) =
                      cold (.opened i more d) (.opened l at_ (some (p.getD .cold)))))
  ∧ (∀ i m d more, LockerState.withMeal (.holding i m) more = .holding i more
      ∧ LockerState.withMeal (.releasing i m) more = .releasing i more
      ∧ LockerState.withMeal (.opened i m d) more = .opened i more d)
  ∧ ∀ (body : List Byte) (p : Pos) (mark hi lo : Byte), body[1 + 3 * p.val]? = some mark →
      body[2 + 3 * p.val]? = some hi → body[3 + 3 * p.val]? = some lo →
      let v : Int := (hi ++ lo : BitVec 16).toInt
      readingOf body p = if mark = 1#8 ∧ -200 ≤ v ∧ v ≤ 1300 then some v else none

/-! ## Supervision (chapter 10) -/

/-- ROLL-CALL is BAD-FIELD above 8, BUSY while a walk is queued or owed or the queue is full, and else ACCEPTED
with one walk at the tail of the queue and walk pending set for every column listed (10 R191). -/
def Obligations.RollCallQueuesAWalk : Prop :=
  ∀ (s : State) (body : List Byte) (rest : List InboxFrame), s.HeadIs 0x4B#8 body rest →
    let refuse (code : Byte) := exec .rollCall s = .next (s.answered rest 0xCB#8 [code]).transmit
    let busy := (∃ op ∈ s.ops, op.mode.isWalk = true) ∨ (∃ c, (s.column c).walkOwed = true)
      ∨ s.freeEntries = 0
    (body.length ≠ 1 ∨ 8 < natAt body 0 1 → refuse 0x47#8)
      ∧ (body.length = 1 → natAt body 0 1 ≤ 8 → busy → refuse 0x42#8)
      ∧ ∀ first others, body.length = 1 → ¬busy →
          (natAt body 0 1 = 0 ∧ first = 0 ∧ others = [1, 2, 3, 4, 5, 6, 7]
            ∨ natAt body 0 1 = first.val + 1 ∧ others = []) →
          ∃ u : State, exec .rollCall s = .next u.transmit
            ∧ u = { s.answered rest 0xCB#8 [0x41#8] with columns := u.columns, ops := u.ops }
            ∧ u.ops = s.ops ++ [{ tag := s.lowestTag, dest := .column first, kind := 0x03#8
                                  position := some 0, side := none
                                  mode := .walk ⟨[], first, others, 0, .rollCall⟩, cls := .routine
                                  origin := .roll, slot := none, inboxRef := none, body := []
                                  notBefore := s.now, inFlight := false }]
            ∧ ∀ c, u.column c =
                if c = first ∨ c ∈ others then { s.column c with walkPending := true } else s.column c

/-- The poll timer queues a POLL into entry 0 unless it holds one, and sets itself 40 ms on (10 R180). Each walk that
is owed is then queued, in column order, while an entry is free, and is owed no more; where none is owed nothing else
is touched (10 R187). That the record of a POLL has mode ONCE is the model's choice (log 41). -/
def Obligations.PollTimerQueuesAPoll : Prop :=
  ∀ s : State, s.held = false →
    let due := max s.now s.pollNext
    let poll : Op :=
      { tag := 0, dest := .all, kind := 0x01#8, position := none, side := none, mode := .once
        cls := .urgent, origin := .poll, slot := none, inboxRef := none, body := []
        notBefore := due, inFlight := false }
    let u : State :=
      { s with now := due, pollNext := s.pollNext + 40000
               ops := if ∃ op ∈ s.ops, op.tag = 0 then s.ops else s.ops ++ [poll] }
    let queues (v : State) (c : Col) : State :=
      if (v.column c).walkOwed = true ∧ 0 < v.freeEntries then
        { v with
          columns := v.columns.set c { v.column c with walkOwed := false }
          ops := v.ops ++ [{ tag := v.lowestTag, dest := .column c, kind := 0x03#8, position := some 0
                             side := none, mode := .walk ⟨[], c, [], 0, .returning⟩, cls := .routine
                             origin := .roll, slot := none, inboxRef := none, body := []
                             notBefore := due, inFlight := false }] }
      else v
    let all := ([0, 1, 2, 3, 4, 5, 6, 7] : List Col).foldl queues u
    exec .pollTimerExpiry s = .next all.transmit ∧ ((∀ c, (s.column c).walkOwed = false) → all = u)

/-- What a column's slot does. A missing answer adds a silence in SETTLING, ACTIVE and SERVICE, up to LOST at
the third, and nothing elsewhere; a present answer sets the silence count to 0 and writes attention; SVC set
brings any column but a SERVICE one into SERVICE; SVC clear brings an ABSENT, LOST or SERVICE column back, SETTLING
for 90 s with its walk called for and its COLUMN-STATE notice, and offers a SETTLING or ACTIVE column that shows ATTN
a FETCH. A column that leaves reach announces it first, and its queued operations are then cancelled (10 R181 to
R184, R186, R187; 09 R176; 05 R101). A settle until at the highest court time falls due at once (01 R8). That calls
which find the queue full owe one walk in all is the model's choice (log 39). -/
def Obligations.SlotAnswersMoveTheColumn : Prop :=
  ∀ (s : State) (c : Col) (a : SlotAnswer), s.QueueLaw →
    let col := s.column c
    let told : Column := { col with silence := 0, attention := a.attn }
    let heard : State := s.setColumn c told
    let timer := if col.state = .absent then some (s.now + 10000000) else col.heatNext
    let counting := col.state.reachable = true ∨ col.state = .service
    (¬counting → s.takeSlot c none = s)
      ∧ (counting → col.silence < 2 →
          s.takeSlot c none = s.setColumn c { col with silence := col.silence + 1 })
      ∧ (counting → 2 ≤ col.silence →
          LeavesReach
            (State.queueNotice (s.setColumn c { col with silence := 3, state := .lost }) (.columnState c .lost))
            (s.takeSlot c none) c)
      ∧ (col.state = .service → a.svc = true → s.takeSlot c (some a) = heard)
      ∧ (col.state ≠ .service → a.svc = true →
          LeavesReach
            (State.queueNotice (s.setColumn c { told with state := .service, heatNext := timer })
              (.columnState c .service))
            (s.takeSlot c (some a)) c)
      ∧ (col.state = .absent ∨ col.state = .lost ∨ col.state = .service → a.svc = false →
          let until_ := s.court.map fun t => min 4294967295 (t + 90)
          let back : Column :=
            { told with state := .settling until_, heatNext := timer, walkPending := true }
          let gives (ops : List Op) (v : Column) : Prop :=
            let u := State.queueNotice { s with columns := s.columns.set c v, ops := ops }
              (.columnState c (.settling until_))
            s.takeSlot c (some a) =
              if s.court.any fun t => decide (4294967295 ≤ t) then
                State.queueNotice { u with columns := s.columns.set c { v with state := .active } }
                  (.columnState c .active)
              else u
          let served := ∃ op ∈ s.ops, ∃ w, op.mode = .walk w ∧ c ∈ w.ahead
          (served → gives s.ops back)
          ∧ (¬served → s.freeEntries = 0 → gives s.ops { back with walkOwed := true })
          ∧ (¬served → 0 < s.freeEntries →
              gives
                (s.ops ++ [{ tag := s.lowestTag, dest := .column c, kind := 0x03#8, position := some 0
                             side := none, mode := .walk ⟨[], c, [], 0, .returning⟩, cls := .routine
                             origin := .roll, slot := none, inboxRef := none, body := []
                             notBefore := s.now, inFlight := false }]) back))
      ∧ (col.state.reachable = true → a.svc = false →
          let due := a.attn = true ∧ col.walkPending = false ∧ 0 < s.freeEntries
            ∧ ∀ op ∈ s.ops, ¬(op.origin = .fetch ∧ op.dest = .column c)
          (¬due → s.takeSlot c (some a) = heard)
          ∧ (due → s.takeSlot c (some a) =
              { heard with
                ops := s.ops ++ [{ tag := s.lowestTag, dest := .column c, kind := 0x02#8, position := none
                                   side := none, mode := .untilEmpty 0, cls := .urgent, origin := .fetch
                                   slot := none, inboxRef := none, body := []
                                   notBefore := s.now, inFlight := false }] }))
      ∧ (col.state = .unseen → a.svc = false → s.takeSlot c (some a) = heard)

/-- A position read as present is reconciled (10 R192, R193, Table 10-4; 06 R127). The descriptor's fields are
written. With no door operation outstanding the locker then moves by its row: an orphan is SPOILED, a load is
completed or undone, a HOLDING meal found gone expires MISSING, a release is returned or collected, a clearing
ends, a PURGING locker comes to rest; PURGE-REST and BLOCKED stand. With one outstanding it keeps its state, and an
open latch of the side in use confirms a phase AWAIT-LATCH without a bounce mask; that the fields of a locker kept
ABSENT are written as well is log 35. Where a purge is then found running on a locker that is not PURGING, its
PURGE-ABORT is queued and PURGE-WAIT or EMPTY comes to rest. With a door operation outstanding R127 and R193 disagree
on these moves to rest: whether they are made is the model's free value (log 17), the statement holds for either, and
that the PURGE-ABORT is queued either way is the model's reading (log 17). The returned meal is taken not to be overdue. The descriptor is read from the reply by Table 7-7, its temperature only
where bit 6 is set and the value lies within -20.0 to +130.0 degrees (07 R142). -/
def Obligations.PositionsReadAsPresentAreReconciled : Prop :=
  (∀ (flags b hi lo : Byte) (more : List Byte),
    let v : Int := (hi ++ lo : BitVec 16).toInt
    descriptorOf (flags :: b :: hi :: lo :: more) =
      { rating := b.toNat % 4, occupied := b.getLsbD 2, frontOpen := b.getLsbD 3, backOpen := b.getLsbD 4
        purgeRunning := b.getLsbD 5
        temp := if b.getLsbD 6 = true ∧ -200 ≤ v ∧ v ≤ 1300 then some v else none })
  ∧ ∀ (s : State) (l : LockerId) (d : Descriptor),
    let lk : Locker :=
      { s.locker l with
        rating := d.rating, occupied := if d.occupied then .yes else .no
        lastTemp := if d.temp.isSome then d.temp else (s.locker l).lastTemp }
    let become (st : LockerState) : State := { s with lockers := s.lockers.set l { lk with state := st } }
    let idle (st : LockerState) : State :=
      { s with lockers := s.lockers.set l { lk with state := st, demand := 0, refusals := 0 } }
    let expires (u : State) (i : Slot) (r : Reservation) (why : Reason) : State :=
      State.queueNotice
        { u with
          entries := s.entries.set i none
          counters := { s.counters with expired := min 4294967295 (s.counters.expired + 1) } }
        (.expired r.tag why (some l))
    let rests (u : State) : State :=
      let st : LockerState :=
        match s.court with
        | none => .purgeRest none
        | some t => if t < 4294967295 then .purgeRest (some (min 4294967295 (t + 120))) else .purgeWait
      { u with lockers := u.lockers.set l { u.locker l with state := st } }
    let result := s.reconcilePresent l d
    let resting := Config.restOverDoor s.now l.val
    (d.purgeRunning = false →
      (s.doorBusy l = false →
        (∀ t, lk.state = .purging t → result = rests (become lk.state))
        ∧ (lk.state = .absent → result = if d.occupied then idle (.spoiled none) else become .purgeWait)
        ∧ (lk.state = .empty ∨ lk.state = .purgeWait →
            result = if d.occupied then idle (.spoiled none) else become lk.state)
        ∧ (∀ t, lk.state = .purgeRest t → result = become lk.state)
        ∧ (∀ f st, lk.state = .blocked f st → result = become lk.state)
        ∧ (∀ st, lk.state = .spoiled st ∨ (∃ ph o, lk.state = .clearing st ph o) →
            result =
              if d.occupied then idle (.spoiled st)
              else (become .purgeWait).queueNotice (.discarded st l))
        ∧ (∀ i ph o r k now, lk.state = .loading i ph o → s.entry i = some r → r.stage = .loading l →
            s.classes.get r.cls = some k → s.court = some now →
            let deadline := min 4294967295 (now + r.holdOverride.getD k.holdLimit)
            let close := min r.closes deadline
            (d.occupied = true → now < close →
              result =
                State.queueNotice
                  { become (.holding i ⟨deadline, 0⟩) with
                    entries := s.entries.set i (some { r with stage := .ready l now, closes := close }) }
                  (.loaded r.tag l close))
            ∧ (d.occupied = true → close ≤ now →
                result = expires (idle (.spoiled (some ⟨r.tag, .window⟩))) i r .window)
            ∧ (d.occupied = false → now < r.closes →
                result = { idle .empty with entries := s.entries.set i (some { r with stage := .booked }) })
            ∧ (d.occupied = false → r.closes ≤ now →
                result =
                  State.queueNotice { idle .empty with entries := s.entries.set i none }
                    (.expired r.tag .notLoaded none)))
        ∧ (∀ i m r at_, lk.state = .holding i m → s.entry i = some r → r.stage = .ready l at_ →
            result = if d.occupied then become lk.state else expires (become .purgeWait) i r .missing)
        ∧ ∀ i m r at_ p, s.entry i = some r →
            (lk.state = .releasing i m ∧ r.stage = .releasing l at_ p
              ∨ (∃ o, lk.state = .opened i m o) ∧ r.stage = .opened l at_ p) →
            (d.occupied = false →
              result =
                State.queueNotice { become .purgeWait with entries := s.entries.set i none }
                  (.collected r.tag l p.isSome))
            ∧ (d.occupied = true → p = none → s.overdue r = false →
                result =
                  State.queueNotice
                    { become (.holding i m) with
                      entries := s.entries.set i (some { r with stage := .ready l at_ }) }
                    (.returned r.tag l))
            ∧ ∀ why, d.occupied = true → p = some why → why ≠ .notLoaded →
                result = expires (idle (.spoiled (some ⟨r.tag, why⟩))) i r why)
      ∧ (s.doorBusy l = true →
        let open_ := lk.state.sideInUse = some .front ∧ d.frontOpen = true
          ∨ lk.state.sideInUse = some .back ∧ d.backOpen = true
        (∀ t, lk.state = .purging t → result = if resting then rests (become lk.state) else become lk.state)
        ∧ ((∀ t, lk.state ≠ .purging t) → ¬open_ ∨ lk.state.phase ≠ some .awaitLatch →
            result = become lk.state)
        ∧ (∀ i m r at_ p, open_ → lk.state = .releasing i m → s.entry i = some r →
            r.stage = .releasing l at_ p →
            result =
              State.queueNotice
                { become (.opened i m ⟨none, false, none⟩) with
                  entries := s.entries.set i (some { r with stage := .opened l at_ p }) }
                (.released r.tag l))
        ∧ (∀ i o, open_ → lk.state = .loading i .awaitLatch o →
            result = become (.loading i .unlatched ⟨some s.now, false, none⟩))
        ∧ ∀ st o, open_ → lk.state = .clearing st .awaitLatch o →
            result = become (.clearing st .unlatched ⟨some s.now, false, none⟩)))
    ∧ (d.purgeRunning = true →
        let v := s.reconcilePresent l { d with purgeRunning := false }
        let u : State :=
          if v.abortOutstanding l = false ∧ 0 < v.freeEntries then
            { v with
              ops := v.ops ++ [{ tag := v.lowestTag, dest := .column (lockerCol l), kind := 0x07#8
                                 position := some (lockerPos l), side := none, mode := .once
                                 cls := .routine, origin := .purge, slot := none, inboxRef := none
                                 body := u8 ((lockerPos l).val + 1), notBefore := v.now
                                 inFlight := false }] }
          else v
        let idles := (v.locker l).state = .purgeWait ∨ (v.locker l).state = .empty
        (∀ t, (v.locker l).state = .purging t → result = v)
        ∧ (s.doorBusy l = false ∨ resting = true → idles → result = rests u)
        ∧ ((∀ t, (v.locker l).state ≠ .purging t) → s.doorBusy l = true ∧ resting = false ∨ ¬idles →
            result = u))

/-- The steps of a walk (10 R188 to R190, R192, R193; 08 R158). A position present is reconciled and the cursor moves
on, after position 8 with the part ended by reading; TAKEN with MET clear rules out the position and those above it
and ends the part by reading; TAKEN clear ends it refused, SILENT silent; after the last column of its list the walk
is removed, INVENTORY-DONE queued but for a returning column's walk, and the end of the initial walk told to MI,
which enters RUN with its MODE notice once court time is set (11 R204; the order of the two notices is log 34).
A part's end moves the column by Table 10-3, clears walk pending unless another walk of the column is queued or owed
(for a part ended refused that is log 32), and offers a FETCH; a part silent for an UNSEEN column makes it ABSENT with
all its positions; a LOST column keeps its silence count (log 33). A position ruled out is reconciled by the Absent
column of Table 10-4; that the positions one step rules out are taken in ascending order is the model's choice
(log 18). -/
def Obligations.WalkStepsReadTheColumns : Prop :=
  (∀ (s : State) (tag : Nat) (w : Walk),
    let c := w.here
    let at_ (u : State) (v : Walk) : State :=
      { u with ops := u.ops.map fun o =>
          if o.tag = tag then
            { o with mode := .walk v, dest := .column v.here, position := some v.pos, inFlight := false }
          else o }
    let goes (u u' : State) : Prop :=
      (∀ k ks, w.ahead = k :: ks →
        u' = at_ u { w with done := w.done ++ [c], here := k, ahead := ks, pos := 0 })
      ∧ (w.ahead = [] →
          let present := (allCols.filter fun k =>
            (u.column k).state.reachable || decide ((u.column k).state = .service)).length
          let known := ((List.finRange 64).filter fun l => decide ((u.locker l).state ≠ .absent)).length
          let told := u.queueNotice (.inventoryDone present known)
          let drop (x : State) : State := { x with ops := x.ops.filter fun o => o.tag != tag }
          (w.cause = .returning → u' = drop u)
          ∧ (w.cause = .rollCall → u' = drop told)
          ∧ (w.cause = .initial →
              let marked : State := { told with walkEnded := true }
              u' = drop (if s.mode = .starting ∧ s.clockMark = true then
                State.queueNotice { marked with mode := .run, ledLow := true } (.mode .run) else marked)))
    (∀ f body, f.taken = true → f.met = true →
      let v := s.reconcilePresent (lockerAt c w.pos) (descriptorOf body)
      (∀ h : w.pos.val + 1 < 8,
        s.walkStep tag w (some (f, body)) = at_ v { w with pos := ⟨w.pos.val + 1, h⟩ })
      ∧ (w.pos.val = 7 → goes (v.endPart tag c .reading) (s.walkStep tag w (some (f, body)))))
    ∧ (∀ f body, f.taken = true → f.met = false →
        goes ((s.absentFrom c w.pos).endPart tag c .reading) (s.walkStep tag w (some (f, body))))
    ∧ (∀ f body, f.taken = false → goes (s.endPart tag c .refused) (s.walkStep tag w (some (f, body))))
    ∧ goes (s.endPart tag c .silent) (s.walkStep tag w none))
  ∧ (∀ (s : State) (tag : Nat) (c : Col), s.QueueLaw →
    let col := s.column c
    let timer := if col.state = .absent then some (s.now + 10000000) else col.heatNext
    let later := col.walkOwed = true
      ∨ ∃ op ∈ s.ops, op.tag ≠ tag ∧ ∃ w, op.mode = .walk w ∧ (w.here = c ∨ c ∈ w.ahead)
    let clears (u v : State) : Prop :=
      (later → v = u) ∧ (¬later → v = u.setColumn c { u.column c with walkPending := false })
    let offers (u v : State) : Prop :=
      let due := u.reachable c = true ∧ (u.column c).walkPending = false ∧ (u.column c).attention = true
        ∧ 0 < u.freeEntries ∧ ∀ op ∈ u.ops, ¬(op.origin = .fetch ∧ op.dest = .column c)
      (¬due → v = u)
      ∧ (due → v =
          { u with ops := u.ops ++ [{ tag := u.lowestTag, dest := .column c, kind := 0x02#8, position := none
                                      side := none, mode := .untilEmpty 0, cls := .urgent
                                      origin := .fetch, slot := none, inboxRef := none, body := []
                                      notBefore := u.now, inFlight := false }] })
    let ends (how : PartEnd) (u : State) : Prop := ∃ v, clears u v ∧ offers v (s.endPart tag c how)
    let tells (v : Column) : State := (s.setColumn c v).queueNotice (.columnState c v.state)
    (col.state = .unseen → ends .reading (tells { col with state := .active }))
    ∧ (col.state = .absent ∨ col.state = .lost →
        let u := tells
          { col with state := .settling (s.court.map fun t => min 4294967295 (t + 90)), heatNext := timer }
        ends .reading
          (if s.court.any fun t => decide (4294967295 ≤ t) then
            (u.setColumn c { u.column c with state := .active }).queueNotice (.columnState c .active)
          else u))
    ∧ (col.state.reachable = true ∨ col.state = .service → ends .reading s)
    ∧ (col.state = .service → ends .refused s)
    ∧ (col.state ≠ .service →
        ∃ u, LeavesReach (tells { col with state := .service, heatNext := timer }) u c ∧ ends .refused u)
    ∧ (col.state = .unseen →
        ∃ u, LeavesReach (tells { col with state := .absent, heatNext := none, granted := .fill 8 0 }) u c
          ∧ ends .silent (u.absentFrom c 0))
    ∧ (col.state = .absent ∨ col.state = .lost → ends .silent s)
    ∧ (col.state.reachable = true ∨ col.state = .service →
        ∃ u, LeavesReach (tells { col with state := .lost, silence := 3 }) u c ∧ ends .silent u))
  ∧ (∀ (s : State) (c : Col) (p : Pos), s.absentFrom c p =
      (([0, 1, 2, 3, 4, 5, 6, 7] : List Pos).filter fun q => decide (p ≤ q)).foldl
        (fun u q => u.reconcileAbsent (lockerAt c q)) s)
  ∧ ∀ (s : State) (l : LockerId),
    let lk := s.locker l
    let gone : State :=
      { s with
        lockers := s.lockers.set l
          { lk with state := .absent, occupied := .unknown, lastTemp := none, demand := 0, refusals := 0 } }
    (lk.state.slot = none → s.reconcileAbsent l = gone)
    ∧ (∀ i ph d r, lk.state = .loading i ph d → s.entry i = some r → r.stage = .loading l →
        s.reconcileAbsent l =
          if s.overdue r then
            State.queueNotice { gone with entries := s.entries.set i none } (.expired r.tag .notLoaded none)
          else { gone with entries := s.entries.set i (some { r with stage := .booked }) })
    ∧ ∀ i m r, lk.state.meal = some (i, m) → s.entry i = some r → r.stage.locker = some l →
        s.reconcileAbsent l =
          State.queueNotice
            { gone with
              entries := s.entries.set i none
              counters := { s.counters with expired := min 4294967295 (s.counters.expired + 1) } }
            (.expired r.tag .missing (some l))

/-! ## The column port and the Operation Queue (chapters 8, 9) -/

/-- An operation is written into the lowest-numbered free entry at the tail of the arrival order while an
entry is free, and not at all otherwise (09 R168). The free entries are those of 1 to 31 that are neither occupied
nor held by a FETCH (09 R169); that the held ones are counted and not numbered is the model's choice (log 38). -/
def Obligations.OperationsTakeTheLowestFreeEntry : Prop :=
  ∀ (s : State) (op : Op),
    s.freeEntries = 31 - (s.ops.filter fun o => decide (o.tag ≠ 0)).length - s.reserve
      ∧ (s.freeEntries = 0 → s.enqueue op = s)
      ∧ (s.QueueLaw → 0 < s.freeEntries →
          s.enqueue op =
            { s with ops := s.ops ++ [{ op with tag := s.lowestTag, notBefore := s.now
                                                inFlight := false }] }
          ∧ 1 ≤ s.lowestTag ∧ s.lowestTag ≤ 31 ∧ (∀ o ∈ s.ops, o.tag ≠ s.lowestTag)
          ∧ ∀ k, 1 ≤ k → k < s.lowestTag → ∃ o ∈ s.ops, o.tag = k)

/-- The scheduler's choice: with the streak at 4 an eligible ROUTINE operation goes first and the streak
becomes 0; otherwise the oldest eligible URGENT one, the streak counting up while a ROUTINE one is eligible and
becoming 0 while none is; otherwise the oldest eligible ROUTINE one; otherwise none (09 R173).
An operation is eligible when it is not in flight, its not-before has passed, and the conditions of Table 9-3 hold:
none further for POLL; for a walk the quiet until at its cursor has passed; for another broadcast no column has a
walk pending or a quiet until; for any other one its column's quiet until has passed, no walk of it is pending, and it
is SETTLING, ACTIVE, or in SERVICE for a PASS whose kind's Filter Table entry is PASS-IN-SERVICE (09 R172). -/
def Obligations.SchedulerChoosesByClassAndAge : Prop :=
  (∀ (s : State) (t : Time),
    let oldest (k : OpClass) (op : Op) := ∃ before after, s.ops = before ++ op :: after
      ∧ op.cls = k ∧ s.eligible t op = true ∧ ∀ o ∈ before, ¬(o.cls = k ∧ s.eligible t o = true)
    let nothing (k : OpClass) := ∀ o ∈ s.ops, ¬(o.cls = k ∧ s.eligible t o = true)
    (∀ u r, oldest .urgent u → oldest .routine r →
        s.choose t = if 4 ≤ s.streak then some (r, 0) else some (u, s.streak + 1))
      ∧ (∀ u, oldest .urgent u → nothing .routine → s.choose t = some (u, 0))
      ∧ (∀ r, nothing .urgent → oldest .routine r → s.choose t = some (r, 0))
      ∧ (nothing .urgent → nothing .routine → s.choose t = none))
  ∧
  ∀ (s : State) (t : Time) (op : Op),
    let passed (c : Col) := ∀ q, (s.column c).quiet = some q → q ≤ t
    let basic := op.inFlight = false ∧ op.notBefore ≤ t
    let able := s.eligible t op = true
    let other := op.origin ≠ .poll ∧ op.mode.isWalk = false
    (op.origin = .poll → (able ↔ basic))
      ∧ (∀ w, op.origin ≠ .poll → op.mode = .walk w → (able ↔ basic ∧ passed w.here))
      ∧ (other → op.dest = .all → (able ↔ basic ∧ ∀ c, (s.column c).walkPending = false ∧ passed c))
      ∧ ∀ c, other → op.dest = .column c →
          (able ↔ basic ∧ passed c ∧ (s.column c).walkPending = false
            ∧ ((∃ u, (s.column c).state = .settling u) ∨ (s.column c).state = .active
              ∨ ((s.column c).state = .service ∧ op.origin = .pass
                ∧ ∃ k, filterIndex op.kind = some k ∧ (s.filter.get k).action = .passInService)))

/-- PORT_GRANT at the first moment when the port is free and an operation is eligible: the operation chosen is
marked in flight and its request is sent as try 1, and a FETCH holds two entries. FETCHes chosen with fewer than 4
free entries end PAUSED: the scheduler chooses again from the rest, the entries counted as before, the streak
unchanged by them; they are removed when the event ends. With an exchange in flight, or nothing eligible, nothing is
granted (09 R169, R173 to R175; 08 R148, R156).
That moment is the first, now or later, with no exchange in flight, 0.2 ms passed since the line was released and an
operation eligible (09 R174, 08 R148). The request goes to the operation's station with its kind and body, a walk's
with the position at its cursor, a COUNTED operation's with its next list item in place of the count (08 R148, R157,
R158). CP_DE is high from the start of a transmission to its end, whether or not a RESTART has abandoned the exchange
(07 R129, 08 R160). -/
def Obligations.PortGrantStartsTheExchange : Prop :=
  (∀ s : State, s.held = false →
    (s.exchange ≠ none ∨ s.firstMoment = none → exec .portGrant s = .next s.transmit)
      ∧ ∀ (t : Time) (paused : List Op), s.firstMoment = some t →
          let without (gone : List Op) : List Op :=
            s.ops.filter fun o => !(gone.map Op.tag).contains o.tag
          let sent (op : Op) : Time := t + op.request.chars.length * 10000000 / 115200
          let starts (op : Op) (k : Nat) : State :=
            { s with
              now := t, streak := k
              ops := (without paused).map fun o =>
                if o.tag = op.tag then { o with inFlight := true } else o
              exchange := some
                { tag := op.tag, dest := op.dest, kind := op.kind, request := op.request.chars
                  tryNo := 1, requestEnd := sent op
                  stage := op.firstStage, leftReach := false, abandoned := false }
              columnRx := .hunting, reserve := if op.origin = .fetch then 2 else s.reserve }
          (∀ n f, paused[n]? = some f → f.origin = .fetch ∧ s.freeEntries < 4
            ∧ ∃ k, s.chooseFrom (without (paused.take n)) t = some (f, k)) →
          (s.chooseFrom (without paused) t = none →
            exec .portGrant s = .next (State.transmit { s with now := t, ops := without paused }))
          ∧ ∀ op k, s.chooseFrom (without paused) t = some (op, k) → op.origin ≠ .fetch ∨ 4 ≤ s.freeEntries →
              exec .portGrant s = .next (starts op k).transmit
              ∧ ∀ v, State.driverEnable { (starts op k).transmit with now := v } = decide (v < sent op))
  ∧
  (∀ s : State,
    let free (u : Time) := s.now ≤ u ∧ (∀ r, s.released = some r → r + 200 ≤ u)
      ∧ ∃ op ∈ s.ops, s.eligible u op = true
    ∀ t, s.firstMoment = some t ↔ s.exchange = none ∧ free t ∧ ∀ u, free u → t ≤ u)
  ∧
  (∀ op : Op,
    let to_ : Station := match op.dest with | .column c => BitVec.ofNat 4 (c.val + 1) | .all => 15#4
    let sends (body : List Byte) := op.request = ⟨to_, 0#4, op.kind, body⟩
    (op.mode = .once ∨ (∃ limit made, op.mode = .untilMet limit made) ∨ (∃ n, op.mode = .untilEmpty n) →
        sends op.body)
      ∧ (∀ w, op.mode = .walk w → sends [BitVec.ofNat 8 (w.pos.val + 1)])
      ∧ (∀ n count items item, op.mode = .counted n → op.body = count :: items → items[n]? = some item →
          sends (item :: items))
      ∧ (∀ c, op.dest = .column c → op.firstStage = .awaiting)
      ∧ (op.dest = .all → op.firstStage = if op.origin = .poll then .slots else .broadcast))
  ∧
  ∀ s : State, s.driverEnable = true ↔
    ∃ x, s.exchange = some x ∧ (x.stage = .awaiting ∨ x.stage = .broadcast ∨ x.stage = .slots)
      ∧ s.now < x.requestEnd

/-- The end of a reply window: with a frame begun the try goes on to that frame's end, without one a try below
the third waits for its retry, which sends the same request again as the next try; the third ends the exchange
SILENT and counts it: its silence is reported first, where a third one makes the column LOST with its COLUMN-STATE
notice and then its cancellations, the column is quiet for 10 ms, and then the operation's mode is applied to SILENT
(08 R150, R151; 10 R182; 09 R176).
CP_DE is high until the end of each try's request and low from then on, while a frame is awaited, a closing frame is
heard or a retry is due (07 R129).
A frame begun inside the window that is not the reply awaited is corrupt: "column frames discarded" counts one;
while the window is open the exchange goes on, and once it has closed the frame's end ends the try, and so does
a discard or the gap limit that runs out on it; the third try so ended ends the exchange SILENT at that moment (07 R132,
R133, R135, 08 R149, R150). The window is closed at its eighth millisecond itself
by the model's choice (log 37). -/
def Obligations.TriesEndAndAreRepeated : Prop :=
  let endsSilent (v : State) (x : Exchange) (c : Col) (out : Host.Outcome State Fault Refusal) : Prop :=
    let col := v.column c
    let counts := col.state.reachable = true ∨ col.state = .service
    let told (k : Column) : State :=
      { v with columns := v.columns.set c k
               counters := { v.counters with silent := min 4294967295 (v.counters.silent + 1) } }
    ∀ op, v.opOf x.tag = some op →
      let ends (u : State) (left : Bool) : Prop := out =
        .next (State.transmit (State.applyMode
          { u with
            exchange := none, released := some v.now, columnRx := .hunting, reserve := 0
            columns := u.columns.set c { u.column c with quiet := some (v.now + 10000) } } op c left .silent))
      (¬counts → ends (told col) x.leftReach)
      ∧ (counts → col.silence < 2 → ends (told { col with silence := col.silence + 1 }) x.leftReach)
      ∧ (counts → 2 ≤ col.silence → v.QueueLaw → op.inFlight = true →
          ∃ u, LeavesReach
              ((told { col with silence := 3, state := .lost }).queueNotice (.columnState c .lost)) u c
            ∧ ends u true)
  (∀ (s : State) (x : Exchange) (c : Col), s.held = false → s.exchange = some x → x.dest = .column c →
      let closed := max s.now (x.requestEnd + 8000)
      let sentBy (t : Time) : Time := max s.now (t + 200) + x.request.length * 10000000 / 115200
      (x.stage = .awaiting → s.columnRx ≠ .hunting →
        exec .tryTimeout s =
          .next (State.transmit { s with now := closed, exchange := some { x with stage := .closing } }))
      ∧ (x.stage = .awaiting → s.columnRx = .hunting → x.abandoned = false → x.tryNo < 3 →
          exec .tryTimeout s =
            .next (State.transmit
              { s with now := closed, exchange := some { x with stage := .retryFrom closed } }))
      ∧ (x.stage = .awaiting → s.columnRx = .hunting → x.abandoned = false → 3 ≤ x.tryNo →
          (∃ u : State, exec .tryTimeout s = .next u.transmit ∧ u.exchange = none ∧ u.now = closed
            ∧ u.released = some closed ∧ (u.column c).quiet = some (closed + 10000)
            ∧ u.counters.silent = min 4294967295 (s.counters.silent + 1))
          ∧ endsSilent { s with now := closed } x c (exec .tryTimeout s))
      ∧ (∀ t, x.stage = .retryFrom t →
          exec .retry s =
            .next (State.transmit
              { s with
                now := max s.now (t + 200)
                exchange := some
                  { x with tryNo := x.tryNo + 1, stage := .awaiting
                           requestEnd := sentBy t }
                columnRx := .hunting })
          ∧ ∃ u : State, exec .retry s = .next u
            ∧ ∀ v, State.driverEnable { u with now := v } = decide (v < sentBy t))
      ∧ (x.stage = .awaiting → ∀ v, State.driverEnable { s with now := v } = decide (v < x.requestEnd))
      ∧ (x.stage = .closing ∨ (∃ t, x.stage = .retryFrom t) → s.driverEnable = false))
  ∧
  (∀ (s : State) (x : Exchange) (c : Col),
      let counted (u : State) : State :=
        { u with counters :=
            { s.counters with columnDiscarded := min 4294967295 (s.counters.columnDiscarded + 1) } }
      let again (t : Time) : State :=
        counted { s with now := t, exchange := some { x with stage := .retryFrom t }, columnRx := .hunting }
      (∀ cmd t, s.FrameEndsTry x c cmd t → x.abandoned = false →
        (x.tryNo < 3 → exec cmd s = .next (again t).transmit)
        ∧ (3 ≤ x.tryNo → endsSilent (counted { s with now := t, columnRx := .hunting }) x c (exec cmd s)))
      ∧ (∀ chars whole, s.Awaits x c → x.opensWith chars → Carries chars whole →
        Receiver.hunting.hear .column chars = (.hunting, [.complete whole]) → x.accepts c whole = none →
        let heard := heardBy .column s.now chars
        (heard < x.requestEnd + 8000 →
          exec (.columnFrameCorrupt chars) s = .next (State.transmit (counted { s with now := heard })))
        ∧ (x.requestEnd + 8000 ≤ heard → x.abandoned = false → x.tryNo < 3 →
            exec (.columnFrameCorrupt chars) s = .next (again heard).transmit))
      ∧ ∀ begun last, s.held = false → s.exchange = some x → x.dest = .column c → x.stage = .closing →
          s.columnRx = .assembling begun last → x.abandoned = false → x.tryNo < 3 →
          exec (.characterGapTimeout .column []) s = .next (again (max s.now (last + 1000))).transmit
          ∧ ∀ chars bytes, Carries chars bytes →
              s.columnRx.hear .column chars = (.hunting, [.complete (begun ++ bytes)]) →
              x.accepts c (begun ++ bytes) = none →
              exec (.columnFrameCorrupt chars) s = .next (again (heardBy .column s.now chars)).transmit)

/-- A good reply that begins inside the reply window ends the exchange, even when its end lies beyond the window:
the silence count becomes 0, the column is quiet for 10 ms, and the operation's mode is applied to the reply.
Characters that all begin outside the window are disregarded and not counted (07 R135, 08 R149, R151; 10 R182). That
one begun at the eighth millisecond itself is outside is the model's choice (log 37). A frame is that reply when its CRC
is good, it comes from that column to station 0 with the request's kind and the reply mark, and its body is no shorter
than Table 7-4 asks for with its flags, bits 0 to 2 of its first byte (07 R135, R136). -/
def Obligations.GoodReplyEndsTheExchange : Prop :=
  (∀ (x : Exchange) (c : Col) (g : Frame), g.body.length ≤ 48 →
    ((x.accepts c g.chars).isSome = true ↔
      g.dest = 0#4 ∧ g.src = BitVec.ofNat 4 (c.val + 1) ∧ g.kind = x.kind ||| 0x80#8
        ∧ ∃ fl, bodyFlags g.body = some fl ∧ minReply x.kind fl ≤ g.body.length))
  ∧ bodyFlags [] = none
  ∧ (∀ (b : Byte) (more : List Byte),
      bodyFlags (b :: more) = some ⟨b.getLsbD 0, b.getLsbD 1, b.getLsbD 2⟩)
  ∧ (∀ (kind : Byte) (fl : Flags), minReply kind fl =
      if fl.taken = false then 1
      else if kind = 0x05#8 then 25
      else if fl.met = true ∧ kind = 0x02#8 then 2
      else if fl.met = true ∧ kind = 0x03#8 then 4
      else 1)
  ∧ ∀ (s : State) (x : Exchange) (c : Col) (chars : List LineChar),
    let heard := heardBy .column s.now chars
    (s.Awaits x c →
      (∀ ch ∈ chars, ch.start < x.requestEnd + 200 ∨ x.requestEnd + 8000 ≤ ch.start) →
      exec (.columnReply chars) s = .next (State.transmit { s with now := heard }))
    ∧ ∀ (body : List Byte) (fl : Flags) (op : Op), x.abandoned = false → body.length ≤ 48 →
      bodyFlags body = some fl → minReply x.kind fl ≤ body.length → s.opOf x.tag = some op →
      let whole := (x.replyFrame c body).chars
      let ends := exec (.columnReply chars) s =
        .next ((State.applyMode (State.afterReply { s with now := heard } c) op c x.leftReach
          (.good fl (x.kind ||| 0x80#8) body)).transmit)
      (s.Awaits x c → x.opensWith chars → Carries chars whole → gapsWithin .column chars = true → ends)
      ∧ ∀ begun last bytes, s.held = false → s.exchange = some x → x.dest = .column c →
          x.stage = .awaiting ∨ x.stage = .closing → s.columnRx = .assembling begun last →
          begun ++ bytes = whole → Carries chars bytes →
          s.columnRx.hear .column chars = (.hunting, [.complete whole]) → ends

/-- The repetition modes at the end of an exchange (08 R154 to R159): ONCE ends DONE or FAILED; UNTIL-MET ends
DONE at MET, FAILED at TAKEN clear, UNMET at its limit, and else goes back with its not-before 100 ms on;
UNTIL-EMPTY hands its event on and goes back while MORE is set and fewer than 8 events have come; COUNTED goes
back until its count is done. Going back keeps the place in the queue, but an operation whose column has left
reach ends CANCELLED instead. SILENT ends every mode but WALK with the outcome SILENT. A walk hands each result to
the Column Supervisor as one step.
The event of a FETCH reply is handed to its block by its code (07 R139, R140, Table 7-6): CODE, BACK-SCAN, BACK-CLEAR,
the door and latch events of either side, PURGE-DONE and SENSOR-FAULT, those with a position outside 1 to 8
disregarded by LT and PC (02 R41, 06 R122), a code's digits read two to a byte and none where one is above 9; a FOREIGN
event becomes a COLUMN-EVENT notice with its raw body (R141); a malformed one, by its code, its length or a side,
occupied or result field, does nothing (R140). PURGE-DONE makes a PURGING locker EMPTY, or BLOCKED PURGE-FAIL, and is
disregarded in every other state (06 R122); SENSOR-FAULT is the fault SENSOR (02 R47). -/
def Obligations.ModesJudgeTheReply : Prop :=
  (∀ (s : State) (op : Op) (c : Col) (left : Bool) (fl : Flags) (kind : Byte) (body : List Byte),
    let r : Result := .good fl kind body
    let endWith (u : State) (o : Op) (out : Outcome) := (u.deliver o out).removeOp o.tag
    let back (u : State) (o : Op) :=
      if left then endWith u o .cancelled else u.updateOp o.tag fun _ => { o with inFlight := false }
    (op.mode = .once → s.applyMode op c left r =
        if fl.taken then endWith s op (.done fl.met kind body) else endWith s op .failed)
    ∧ (∀ limit made, op.mode = .untilMet limit made → s.applyMode op c left r =
        if fl.taken = false then endWith s op .failed
        else if fl.met then endWith s op (.done true kind body)
        else if made + 1 = limit then endWith s { op with mode := .untilMet limit (made + 1) } .unmet
        else back s { op with mode := .untilMet limit (made + 1), notBefore := s.now + 100000 })
    ∧ (∀ n, op.mode = .untilEmpty n → s.applyMode op c left r =
        if fl.taken = false then endWith s op .failed
        else if fl.met = false then endWith s op (.done false kind body)
        else
          if fl.more = false ∨ n + 1 = 8 then
            endWith (s.handRaw c (body.drop 1)) op (.done true kind body)
          else back (s.handRaw c (body.drop 1)) { op with mode := .untilEmpty (n + 1) })
    ∧ (∀ n, op.mode = .counted n → s.applyMode op c left r =
        if fl.taken = false then endWith s op .failed
        else if natAt op.body 0 1 ≤ n + 1 then
          endWith s { op with mode := .counted (n + 1) } (.done fl.met kind body)
        else back s { op with mode := .counted (n + 1) })
    ∧ (op.mode.isWalk = false → s.applyMode op c left .silent = endWith s op .silent)
    ∧ ∀ w, op.mode = .walk w → s.applyMode op c left r = s.walkStep op.tag w (some (fl, body))
        ∧ s.applyMode op c left .silent = s.walkStep op.tag w none)
  ∧ (∀ (s : State) (c : Col),
    let at_ (p : Byte) (act : LockerId → State) (u : State) : Prop :=
      (∀ l, lockerCol l = c → p.toNat = (lockerPos l).val + 1 → u = act l)
        ∧ (p = 0#8 ∨ 8 < p.toNat → u = s)
    (∀ x y z more, s.handRaw c (0x01#8 :: x :: y :: z :: more) = s.codeEvent c (codeOf [x, y, z]))
    ∧ (∀ w x y z more, s.handRaw c (0x02#8 :: w :: x :: y :: z :: more) =
        s.backScan c (((w.toNat * 256 + x.toNat) * 256 + y.toNat) * 256 + z.toNat))
    ∧ (∀ p more, s.handRaw c (0x03#8 :: p :: more) = s.backClear c p.toNat)
    ∧ (∀ p more,
        at_ p (fun l => s.doorOpened l .front) (s.handRaw c (0x04#8 :: p :: 0#8 :: more))
        ∧ at_ p (fun l => s.doorOpened l .back) (s.handRaw c (0x04#8 :: p :: 1#8 :: more))
        ∧ at_ p (fun l => s.doorClosed l .front false) (s.handRaw c (0x05#8 :: p :: 0#8 :: 0#8 :: more))
        ∧ at_ p (fun l => s.doorClosed l .front true) (s.handRaw c (0x05#8 :: p :: 0#8 :: 1#8 :: more))
        ∧ at_ p (fun l => s.doorClosed l .back false) (s.handRaw c (0x05#8 :: p :: 1#8 :: 0#8 :: more))
        ∧ at_ p (fun l => s.doorClosed l .back true) (s.handRaw c (0x05#8 :: p :: 1#8 :: 1#8 :: more))
        ∧ at_ p (fun l => s.relatched l .front) (s.handRaw c (0x06#8 :: p :: 0#8 :: more))
        ∧ at_ p (fun l => s.relatched l .back) (s.handRaw c (0x06#8 :: p :: 1#8 :: more))
        ∧ at_ p (fun l => s.purgeDone l true) (s.handRaw c (0x07#8 :: p :: 0#8 :: more))
        ∧ at_ p (fun l => s.purgeDone l false) (s.handRaw c (0x07#8 :: p :: 1#8 :: more))
        ∧ at_ p (fun l => s.takeFault l .sensor) (s.handRaw c (0x08#8 :: p :: more)))
    ∧ (∀ code more, 0x10 ≤ code.toNat → code.toNat ≤ 0x3F →
        s.handRaw c (code :: more) = s.queueNotice (.columnEvent c (code :: more)))
    ∧ s.handRaw c [] = s
    ∧ ∀ code more, code = 0#8 ∨ (9 ≤ code.toNat ∧ code.toNat ≤ 0x0F) ∨ 0x40 ≤ code.toNat
        ∨ (code = 0x01#8 ∧ more.length < 3) ∨ (code = 0x02#8 ∧ more.length < 4)
        ∨ (code ∈ [0x03#8, 0x08#8] ∧ more.length < 1)
        ∨ (code ∈ [0x04#8, 0x06#8, 0x07#8] ∧ (more.length < 2 ∨ ∃ b, more[1]? = some b ∧ 1 < b.toNat))
        ∨ (code = 0x05#8 ∧ (more.length < 3 ∨ (∃ b, more[1]? = some b ∧ 1 < b.toNat)
          ∨ ∃ b, more[2]? = some b ∧ 1 < b.toNat)) →
        s.handRaw c (code :: more) = s)
  ∧ (∀ x y z : Byte,
      let digits : List Nat := [x.toNat / 16, x.toNat % 16, y.toNat / 16, y.toNat % 16, z.toNat / 16, z.toNat % 16]
      codeOf [x, y, z] =
        if ∀ d ∈ digits, d ≤ 9 then some (digits.foldl (fun n d => n * 10 + d) 0) else none)
  ∧ ∀ (s : State) (l : LockerId) (ok : Bool),
      (∀ t, (s.locker l).state = .purging t →
        (ok = true → s.purgeDone l ok =
          { s with lockers := s.lockers.set l { s.locker l with state := .empty, demand := 0, refusals := 0 } })
        ∧ (ok = false → s.purgeDone l ok = s.takeFault l .purgeFail))
      ∧ ((∀ t, (s.locker l).state ≠ .purging t) → s.purgeDone l ok = s)

/-- What the other outcomes do in the block they reach (08 R159). UNLATCH, while its handshake stands: DONE confirms
the latch with a bounce mask of 300 ms; UNMET, FAILED and SILENT bring the fault LATCH, count a failed release, and
show SEE-COUNTER or LATCH-FAULT on a reachable column; CANCELLED, and every outcome once the handshake is gone, do
nothing (02 R48, 03 R65 to R67, 04 R83 to R85, R92). PURGE-START with MET 1 begins a purge, or has an unwanted one
aborted; PURGE-ABORT with MET 1 brings a PURGING locker to rest (06 R119 to R121, R125, R126). HEAT-SET: its readings
are taken, or the period is blind, and a blind period adds 10 cold seconds to each held meal of a column that is not
settling, COLD above the allowance (05 R107, R111 to R114); that the positions are taken in ascending order is the
model's choice (log 18). PANEL-SHOW, FETCH, ROLL and POLL change nothing (03 R55, 04 R75, 10 R186). A deadline that
the highest court time has reached falls due at once (01 R8). -/
def Obligations.OutcomesReachTheirBlocks : Prop :=
  (∀ (s : State) (op : Op) (c : Col) (p : Pos) (out : Outcome), op.dest = .column c → op.position = some p →
    let l := lockerAt c p
    let lk := s.locker l
    let become (st : LockerState) : State := { s with lockers := s.lockers.set l { lk with state := st } }
    let shows (u : State) (side : Side) (m : Message) : State :=
      if u.reachable c = true then u.enqueue (panelOp c side m) else u
    let fails := out = .unmet ∨ out = .failed ∨ out = .silent
    let done := ∃ met kind body, out = .done met kind body
    (op.origin = .collect →
      (∀ i m r at_ e, lk.state = .releasing i m → op.slot = some i → s.entry i = some r →
        r.stage = .releasing l at_ e →
        (done → s.deliver op out =
          State.queueNotice
            { become (.opened i m ⟨none, false, some (s.now + 300000)⟩) with
              entries := s.entries.set i (some { r with stage := .opened l at_ e }) }
            (.released r.tag l))
        ∧ (fails →
            let u := s.takeFault l .latch
            s.deliver op out =
              shows
                { u with counters :=
                    { u.counters with releasesFailed := min 4294967295 (u.counters.releasesFailed + 1) } }
                .front .seeCounter)
        ∧ (out = .cancelled → s.deliver op out = s))
      ∧ ((∀ i m, lk.state = .releasing i m → op.slot ≠ some i) → s.deliver op out = s))
    ∧ (op.origin = .load →
        (∀ i d, lk.state = .loading i .awaitLatch d → op.slot = some i →
          (done → s.deliver op out =
            become (.loading i .unlatched ⟨some s.now, false, some (s.now + 300000)⟩))
          ∧ (fails → s.deliver op out = shows (s.takeFault l .latch) .back (.latchFault l))
          ∧ (out = .cancelled → s.deliver op out = s))
        ∧ ((∀ i d, lk.state = .loading i .awaitLatch d → op.slot ≠ some i) → s.deliver op out = s))
    ∧ (op.origin = .clear →
        (∀ st d, lk.state = .clearing st .awaitLatch d →
          (done → s.deliver op out =
            become (.clearing st .unlatched ⟨some s.now, false, some (s.now + 300000)⟩))
          ∧ (fails → s.deliver op out = shows (s.takeFault l .latch) .back (.latchFault l))
          ∧ (out = .cancelled → s.deliver op out = s))
        ∧ ((∀ st d, lk.state ≠ .clearing st .awaitLatch d) → s.deliver op out = s))
    ∧ (op.origin = .purge →
        let begun := ∃ kind body, out = .done true kind body
        (¬begun → s.deliver op out = s)
        ∧ (begun → op.kind = 0x06#8 →
            (lk.state = .purgeWait → (∀ t, s.court = some t → t < 4294967295) →
              s.deliver op out = become (.purging s.court))
            ∧ (lk.state = .purgeWait → s.court = some 4294967295 →
                s.deliver op out =
                  ((become (.purging s.court)).takeFault l .purgeStall).queueAbort l false)
            ∧ (lk.state ≠ .purgeWait → s.deliver op out = s.queueAbort l false))
        ∧ (begun → op.kind = 0x07#8 →
            (∀ t, lk.state = .purging t →
              s.deliver op out = become (
                match s.court with
                | none => .purgeRest none
                | some now => if now < 4294967295 then .purgeRest (some (min 4294967295 (now + 120)))
                    else .purgeWait))
            ∧ ((∀ t, lk.state ≠ .purging t) → s.deliver op out = s))))
  ∧ (∀ (s : State) (l : LockerId) (walkStep : Bool),
      s.queueAbort l walkStep =
        if s.abortOutstanding l = false ∧ (walkStep = true ∨ s.reachable (lockerCol l) = true)
            ∧ 0 < s.freeEntries then
          { s with
            ops := s.ops ++ [{ tag := s.lowestTag, dest := .column (lockerCol l), kind := 0x07#8
                               position := some (lockerPos l), side := none, mode := .once, cls := .routine
                               origin := .purge, slot := none, inboxRef := none
                               body := u8 ((lockerPos l).val + 1), notBefore := s.now
                               inFlight := false }] }
        else s)
  ∧ (∀ (s : State) (op : Op) (c : Col) (out : Outcome), op.origin = .heat → op.dest = .column c →
      (∀ met kind body, out = .done met kind body →
        s.deliver op out = ([0, 1, 2, 3, 4, 5, 6, 7] : List Pos).foldl
          (fun u p => u.takeReading c (lockerAt c p) (readingOf body p)) s)
      ∧ (out = .failed ∨ out = .silent ∨ out = .cancelled → s.deliver op out =
          if (s.column c).state.isSettling then s
          else ([0, 1, 2, 3, 4, 5, 6, 7] : List Pos).foldl (fun u p => u.addCold (lockerAt c p)) s)
      ∧ s.blindPeriod c =
          if (s.column c).state.isSettling then s
          else ([0, 1, 2, 3, 4, 5, 6, 7] : List Pos).foldl (fun u p => u.addCold (lockerAt c p)) s)
  ∧ (∀ (s : State) (l : LockerId),
      let lk := s.locker l
      let become (st : LockerState) : State := { s with lockers := s.lockers.set l { lk with state := st } }
      (lk.state.meal = none → s.addCold l = s)
      ∧ ∀ i m r k, lk.state.meal = some (i, m) → s.entry i = some r → s.classes.get r.cls = some k →
          let more : Meal := ⟨m.deadline, m.cold + 10⟩
          (m.cold + 10 ≤ k.coldAllowance →
            (lk.state = .holding i m → s.addCold l = become (.holding i more))
            ∧ (lk.state = .releasing i m → s.addCold l = become (.releasing i more))
            ∧ ∀ d, lk.state = .opened i m d → s.addCold l = become (.opened i more d))
          ∧ (k.coldAllowance < m.cold + 10 →
              (∀ at_, lk.state = .holding i m → r.stage = .ready l at_ →
                s.addCold l =
                  State.queueNotice
                    { s with
                      entries := s.entries.set i none
                      lockers := s.lockers.set l
                        { lk with state := .spoiled (some ⟨r.tag, .cold⟩), demand := 0, refusals := 0 }
                      counters := { s.counters with expired := min 4294967295 (s.counters.expired + 1) } }
                    (.expired r.tag .cold (some l)))
              ∧ (∀ at_ e, lk.state = .releasing i m → r.stage = .releasing l at_ e →
                  s.addCold l =
                    { become (.releasing i more) with
                      entries := s.entries.set i
                        (some { r with stage := .releasing l at_ (some (e.getD .cold)) }) })
              ∧ ∀ at_ e d, lk.state = .opened i m d → r.stage = .opened l at_ e →
                  s.addCold l =
                    { become (.opened i more d) with
                      entries := s.entries.set i
                        (some { r with stage := .opened l at_ (some (e.getD .cold)) }) }))
  ∧ ∀ (s : State) (op : Op) (out : Outcome),
      op.origin = .panel ∨ op.origin = .fetch ∨ op.origin = .roll ∨ op.origin = .poll → s.deliver op out = s

/-- The outcome of a PASS operation reaches MI, which places one reply in the reply queue at its delivery: the
request's kind with the reply mark, its destination as source; a broadcast sent is OK without data, a column's last
reply is forwarded with bits 3 to 7 of its flags 0, FAILED is FAILED, SILENT is NO-REPLY and CANCELLED is UNREACHABLE,
these three with the count done where the operation is COUNTED. While the port law stands, a reply entry is free for
it. A PASS operation that a RESTART clears gets no reply (11 R203, 07 R145). -/
def Obligations.PassOutcomesAreAnswered : Prop :=
  (∀ (s : State) (op : Op) (ref : InboxRef) (met : Bool) (flags : Byte) (rest : List Byte),
    op.origin = .pass → op.inboxRef = some ref → op.mode = .once ∨ (∃ n, op.mode = .counted n) →
    let placed (out : Outcome) (body : List Byte) : Prop := s.deliver op out =
      { s with replies := s.replies ++ [⟨ref.kind ||| 0x80#8, ref.dest, body, false⟩] }
    let count : List Byte :=
      match op.mode with
      | .counted n => [BitVec.ofNat 8 n]
      | _ => []
    (op.dest = .all → placed (.done met op.kind rest) [0x40#8])
      ∧ (∀ c, op.dest = .column c →
          placed (.done met (ref.kind ||| 0x80#8) (flags :: rest)) ((flags &&& 0x07#8) :: rest))
      ∧ placed .failed (0x4F#8 :: count)
      ∧ placed .silent (0x4E#8 :: count)
      ∧ placed .cancelled (0x4D#8 :: count))
  ∧ (∀ (s : State) (op : Op), s.PortLaw → op ∈ s.ops → op.origin = .pass → s.replies.length < 8)
  ∧ ∀ (s : State) (f : Sending), s.held = false → s.sending = some f → f.restart = true →
      ∃ t, exec .restartTakesEffect s = .next t ∧ t.replies = [] ∧ ∀ op ∈ t.ops, op.origin ≠ .pass

/-- A broadcast ends when it has been sent: its PASS operation ends DONE with the reply OK and no data, the
line is released and nothing else changes (08 R152, 11 R203). A POLL ends when slot 8 closes: the slots, 1 ms each
from 0.5 ms after its frame on, are taken in the order of the columns and the POLL is removed. The one character
that begins in a slot is its answer when it is 0x80, 0x01, 0x02 or 0x83; another is counted; a slot without an
answer is missing (08 R153, 07 R138). That two or more characters in a slot are no answer and count each is the
model's choice (log 29), and so is that a slot's closing moment lies in the next one (log 40). CP_DE is high until the
end of the broadcast's or POLL's own frame and low after it, while the
slots run too (07 R129, 08 R152, R153). -/
def Obligations.BroadcastsAndPollsEnd : Prop :=
  (∀ (s : State) (x : Exchange), s.held = false → s.exchange = some x → x.abandoned = false →
    let cleared (t : Time) : State :=
      { s with now := max s.now t, exchange := none, released := some (max s.now t)
               columnRx := .hunting, reserve := 0 }
    (x.stage = .broadcast ∨ x.stage = .slots →
      ∀ v, State.driverEnable { s with now := v } = decide (v < x.requestEnd))
    ∧ (∀ t, (cleared t).driverEnable = false)
    ∧ (∀ op ref, x.stage = .broadcast → s.opOf x.tag = some op → op.origin = .pass → op.dest = .all →
      op.inboxRef = some ref →
      exec .broadcastSent s =
        .next (State.transmit
          { cleared x.requestEnd with
            replies := s.replies ++ [⟨ref.kind ||| 0x80#8, ref.dest, [0x40#8], false⟩]
            ops := s.ops.filter fun o => o.tag != x.tag }))
    ∧ ∀ chars : List LineChar, x.stage = .slots →
        let slot (u : State) (c : Col) : State :=
          let opens := x.requestEnd + 500 + c.val * 1000
          match chars.filter fun ch => decide (opens ≤ ch.start ∧ ch.start < opens + 1000) with
          | [] => u.takeSlot c none
          | [ch] =>
            match charAnswer ch with
            | some a => u.takeSlot c (some a)
            | none => u.countColumnDiscard.takeSlot c none
          | many => (many.foldl (fun v _ => v.countColumnDiscard) u).takeSlot c none
        exec (.pollEnd chars) s =
          .next (State.transmit (State.removeOp
            (([0, 1, 2, 3, 4, 5, 6, 7] : List Col).foldl slot (cleared (x.requestEnd + 8500))) x.tag)))
  ∧
  ∀ ch : LineChar, charAnswer ch =
    if ch.byte = some 0x80#8 then some ⟨false, false⟩
    else if ch.byte = some 0x01#8 then some ⟨true, false⟩
    else if ch.byte = some 0x02#8 then some ⟨false, true⟩
    else if ch.byte = some 0x83#8 then some ⟨true, true⟩
    else none
end

