-- ==== Sys2Proof/Laws/Bank.lean ====
section
/-! SUPPORT. What reading, writing, filling, mapping and searching a table of fixed size give. -/

namespace Sys2Proof.Bank

variable {α β : Type} {n : Nat}

/-- Two tables with the same cells are the same. -/
theorem ext_cells {a b : Bank α n} (h : a.cells = b.cells) : a = b := by
  cases a; cases b; cases h; rfl

/-- A record is the cell at its index. -/
theorem get_eq (b : Bank α n) (i : Fin n) : some (b.get i) = b.cells[i.val]? := by
  unfold get
  rw [List.getElem?_eq_getElem]

/-- Two tables with the same records are the same. -/
theorem ext_get {a b : Bank α n} (h : ∀ i, a.get i = b.get i) : a = b := by
  apply ext_cells
  apply List.ext_getElem
  · rw [a.size, b.size]
  · intro i h1 _
    exact h ⟨i, by rw [← a.size]; exact h1⟩

/-- The record written is read back. -/
@[simp] theorem get_set_self (b : Bank α n) (i : Fin n) (v : α) : (b.set i v).get i = v := by
  simp [get, set]

/-- Every other record is as before. -/
theorem get_set_ne (b : Bank α n) {i j : Fin n} (v : α) (h : i ≠ j) : (b.set i v).get j = b.get j := by
  have : i.val ≠ j.val := fun e => h (Fin.ext e)
  simp [get, set, this]

/-- A record after a write. -/
theorem get_set (b : Bank α n) (i j : Fin n) (v : α) :
    (b.set i v).get j = if i = j then v else b.get j := by
  by_cases h : i = j
  · subst h; simp
  · rw [if_neg h, get_set_ne b v h]

/-- A second write of the same record replaces the first. -/
@[simp] theorem set_set (b : Bank α n) (i : Fin n) (v w : α) : (b.set i v).set i w = b.set i w := by
  apply ext_cells
  simp [set]

/-- Writing back what is there changes nothing. -/
@[simp] theorem set_get (b : Bank α n) (i : Fin n) : b.set i (b.get i) = b := by
  apply ext_get
  intro j
  rw [get_set]
  split
  · next h => rw [h]
  · rfl

/-- Every record of a filled table is the value it was filled with. -/
@[simp] theorem get_fill (v : α) (i : Fin n) : (fill n v).get i = v := by
  simp [get, fill]

/-- Every record of a mapped table. -/
@[simp] theorem get_map (b : Bank α n) (f : α → β) (i : Fin n) : (b.map f).get i = f (b.get i) := by
  simp [get, map]

/-- Every record of a built table. -/
@[simp] theorem get_build (f : Fin n → α) (i : Fin n) : (build f).get i = f i := by
  simp [get, build]

/-- A search that finds nothing: no record satisfies the test. -/
theorem find_none {b : Bank α n} {p : α → Bool} : b.find p = none ↔ ∀ i, p (b.get i) = false := by
  unfold find
  constructor
  · intro h i
    cases hk : b.cells.findIdx? p with
    | none =>
      have := List.findIdx?_eq_none_iff.mp hk (b.get i) (by unfold get; exact List.getElem_mem _)
      simpa using this
    | some k =>
      have hlt : k < n := by
        have := List.findIdx?_eq_some_iff_findIdx_eq.mp hk
        rw [← b.size]; exact this.1
      simp [hk, hlt] at h
  · intro h
    have : b.cells.findIdx? p = none := by
      rw [List.findIdx?_eq_none_iff]
      intro x hx
      obtain ⟨k, hk, rfl⟩ := List.getElem_of_mem hx
      exact h ⟨k, by rw [← b.size]; exact hk⟩
    rw [this]

/-- A search that finds an index: its record satisfies the test, and no record below it does. -/
theorem find_some {b : Bank α n} {p : α → Bool} {i : Fin n} :
    b.find p = some i ↔ p (b.get i) = true ∧ ∀ j, j < i → p (b.get j) = false := by
  unfold find
  cases hk : b.cells.findIdx? p with
  | none =>
    have hn := List.findIdx?_eq_none_iff.mp hk (b.get i) (by unfold get; exact List.getElem_mem _)
    simp [hn]
  | some k =>
    obtain ⟨hlt, hp, hmin⟩ := List.findIdx?_eq_some_iff_getElem.mp hk
    have hkn : k < n := by rw [← b.size]; exact hlt
    simp only [hkn, dite_true, Option.some.injEq]
    constructor
    · rintro rfl
      refine ⟨hp, fun j hj => ?_⟩
      have := hmin j.val hj
      simpa [get] using this
    · rintro ⟨hi, hlow⟩
      rcases Nat.lt_trichotomy k i.val with h | h | h
      · have h1 := hlow ⟨k, hkn⟩ h
        simp only [get] at h1
        rw [hp] at h1
        cases h1
      · exact Fin.ext h
      · have h1 := hmin i.val h
        simp only [get] at hi
        rw [hi] at h1
        simp at h1

/-- What a search finds satisfies the test. -/
theorem find_test {b : Bank α n} {p : α → Bool} {i : Fin n} (h : b.find p = some i) :
    p (b.get i) = true := (find_some.mp h).1

/-- A record that satisfies the test makes the search find one at or below it. -/
theorem find_le {b : Bank α n} {p : α → Bool} {i : Fin n} (h : p (b.get i) = true) :
    ∃ j, b.find p = some j ∧ j ≤ i := by
  cases hf : b.find p with
  | none => rw [find_none.mp hf i] at h; cases h
  | some j =>
    refine ⟨j, rfl, ?_⟩
    by_contra hlt
    have := (find_some.mp hf).2 i (not_le.mp hlt)
    rw [this] at h; cases h

end Sys2Proof.Bank
end

