-- ==== Sys2Proof/Laws/State.lean ====
section
/-! SUPPORT. What each named update of the state changes, field by field, for simp. -/

namespace Sys2Proof.Machine

open Config

/-- Writing an entry writes the Reservation Table alone. -/
@[simp] theorem State.setEntry_fields (s : State) (i : Slot) (e : Option Reservation) :
      (s.setEntry i e).pending = s.pending ∧ (s.setEntry i e).held = s.held ∧ (s.setEntry i e).now = s.now
      ∧ (s.setEntry i e).entries = s.entries.set i e ∧ (s.setEntry i e).court = s.court
      ∧ (s.setEntry i e).courtNext = s.courtNext ∧ (s.setEntry i e).shift = s.shift
      ∧ (s.setEntry i e).lockers = s.lockers ∧ (s.setEntry i e).classes = s.classes
      ∧ (s.setEntry i e).columns = s.columns ∧ (s.setEntry i e).ops = s.ops
      ∧ (s.setEntry i e).reserve = s.reserve ∧ (s.setEntry i e).streak = s.streak
      ∧ (s.setEntry i e).exchange = s.exchange ∧ (s.setEntry i e).released = s.released
      ∧ (s.setEntry i e).columnRx = s.columnRx ∧ (s.setEntry i e).pollNext = s.pollNext
      ∧ (s.setEntry i e).serverRx = s.serverRx ∧ (s.setEntry i e).inbox = s.inbox
      ∧ (s.setEntry i e).replies = s.replies ∧ (s.setEntry i e).notices = s.notices
      ∧ (s.setEntry i e).sending = s.sending ∧ (s.setEntry i e).gap = s.gap
      ∧ (s.setEntry i e).restartPending = s.restartPending ∧ (s.setEntry i e).filter = s.filter
      ∧ (s.setEntry i e).mode = s.mode ∧ (s.setEntry i e).walkEnded = s.walkEnded
      ∧ (s.setEntry i e).clockMark = s.clockMark ∧ (s.setEntry i e).ledLow = s.ledLow
      ∧ (s.setEntry i e).counters = s.counters ∧ (s.setEntry i e).choices = s.choices := by
  and_intros <;> rfl

/-- Writing a locker record writes the Locker Table alone. -/
@[simp] theorem State.setLocker_fields (s : State) (l : LockerId) (v : Locker) :
      (s.setLocker l v).pending = s.pending ∧ (s.setLocker l v).held = s.held ∧ (s.setLocker l v).now = s.now
      ∧ (s.setLocker l v).entries = s.entries ∧ (s.setLocker l v).court = s.court
      ∧ (s.setLocker l v).courtNext = s.courtNext ∧ (s.setLocker l v).shift = s.shift
      ∧ (s.setLocker l v).lockers = s.lockers.set l v ∧ (s.setLocker l v).classes = s.classes
      ∧ (s.setLocker l v).columns = s.columns ∧ (s.setLocker l v).ops = s.ops
      ∧ (s.setLocker l v).reserve = s.reserve ∧ (s.setLocker l v).streak = s.streak
      ∧ (s.setLocker l v).exchange = s.exchange ∧ (s.setLocker l v).released = s.released
      ∧ (s.setLocker l v).columnRx = s.columnRx ∧ (s.setLocker l v).pollNext = s.pollNext
      ∧ (s.setLocker l v).serverRx = s.serverRx ∧ (s.setLocker l v).inbox = s.inbox
      ∧ (s.setLocker l v).replies = s.replies ∧ (s.setLocker l v).notices = s.notices
      ∧ (s.setLocker l v).sending = s.sending ∧ (s.setLocker l v).gap = s.gap
      ∧ (s.setLocker l v).restartPending = s.restartPending ∧ (s.setLocker l v).filter = s.filter
      ∧ (s.setLocker l v).mode = s.mode ∧ (s.setLocker l v).walkEnded = s.walkEnded
      ∧ (s.setLocker l v).clockMark = s.clockMark ∧ (s.setLocker l v).ledLow = s.ledLow
      ∧ (s.setLocker l v).counters = s.counters ∧ (s.setLocker l v).choices = s.choices := by
  and_intros <;> rfl

/-- A locker's entering a state writes the Locker Table alone. -/
@[simp] theorem State.enterLocker_fields (s : State) (l : LockerId) (st : LockerState) :
      (s.enterLocker l st).pending = s.pending ∧ (s.enterLocker l st).held = s.held
      ∧ (s.enterLocker l st).now = s.now ∧ (s.enterLocker l st).entries = s.entries
      ∧ (s.enterLocker l st).court = s.court ∧ (s.enterLocker l st).courtNext = s.courtNext
      ∧ (s.enterLocker l st).shift = s.shift
      ∧ (s.enterLocker l st).lockers = s.lockers.set l ((s.locker l).enter st)
      ∧ (s.enterLocker l st).classes = s.classes ∧ (s.enterLocker l st).columns = s.columns
      ∧ (s.enterLocker l st).ops = s.ops ∧ (s.enterLocker l st).reserve = s.reserve
      ∧ (s.enterLocker l st).streak = s.streak ∧ (s.enterLocker l st).exchange = s.exchange
      ∧ (s.enterLocker l st).released = s.released ∧ (s.enterLocker l st).columnRx = s.columnRx
      ∧ (s.enterLocker l st).pollNext = s.pollNext ∧ (s.enterLocker l st).serverRx = s.serverRx
      ∧ (s.enterLocker l st).inbox = s.inbox ∧ (s.enterLocker l st).replies = s.replies
      ∧ (s.enterLocker l st).notices = s.notices ∧ (s.enterLocker l st).sending = s.sending
      ∧ (s.enterLocker l st).gap = s.gap ∧ (s.enterLocker l st).restartPending = s.restartPending
      ∧ (s.enterLocker l st).filter = s.filter ∧ (s.enterLocker l st).mode = s.mode
      ∧ (s.enterLocker l st).walkEnded = s.walkEnded ∧ (s.enterLocker l st).clockMark = s.clockMark
      ∧ (s.enterLocker l st).ledLow = s.ledLow ∧ (s.enterLocker l st).counters = s.counters
      ∧ (s.enterLocker l st).choices = s.choices := by
  and_intros <;> rfl

/-- Writing occupied writes the Locker Table alone. -/
@[simp] theorem State.setOccupied_fields (s : State) (l : LockerId) (o : Occupied) :
      (s.setOccupied l o).pending = s.pending ∧ (s.setOccupied l o).held = s.held
      ∧ (s.setOccupied l o).now = s.now ∧ (s.setOccupied l o).entries = s.entries
      ∧ (s.setOccupied l o).court = s.court ∧ (s.setOccupied l o).courtNext = s.courtNext
      ∧ (s.setOccupied l o).shift = s.shift
      ∧ (s.setOccupied l o).lockers = s.lockers.set l { s.locker l with occupied := o }
      ∧ (s.setOccupied l o).classes = s.classes ∧ (s.setOccupied l o).columns = s.columns
      ∧ (s.setOccupied l o).ops = s.ops ∧ (s.setOccupied l o).reserve = s.reserve
      ∧ (s.setOccupied l o).streak = s.streak ∧ (s.setOccupied l o).exchange = s.exchange
      ∧ (s.setOccupied l o).released = s.released ∧ (s.setOccupied l o).columnRx = s.columnRx
      ∧ (s.setOccupied l o).pollNext = s.pollNext ∧ (s.setOccupied l o).serverRx = s.serverRx
      ∧ (s.setOccupied l o).inbox = s.inbox ∧ (s.setOccupied l o).replies = s.replies
      ∧ (s.setOccupied l o).notices = s.notices ∧ (s.setOccupied l o).sending = s.sending
      ∧ (s.setOccupied l o).gap = s.gap ∧ (s.setOccupied l o).restartPending = s.restartPending
      ∧ (s.setOccupied l o).filter = s.filter ∧ (s.setOccupied l o).mode = s.mode
      ∧ (s.setOccupied l o).walkEnded = s.walkEnded ∧ (s.setOccupied l o).clockMark = s.clockMark
      ∧ (s.setOccupied l o).ledLow = s.ledLow ∧ (s.setOccupied l o).counters = s.counters
      ∧ (s.setOccupied l o).choices = s.choices := by
  and_intros <;> rfl

/-- Writing a column record writes the Column Table alone. -/
@[simp] theorem State.setColumn_fields (s : State) (c : Col) (v : Column) :
      (s.setColumn c v).pending = s.pending ∧ (s.setColumn c v).held = s.held ∧ (s.setColumn c v).now = s.now
      ∧ (s.setColumn c v).entries = s.entries ∧ (s.setColumn c v).court = s.court
      ∧ (s.setColumn c v).courtNext = s.courtNext ∧ (s.setColumn c v).shift = s.shift
      ∧ (s.setColumn c v).lockers = s.lockers ∧ (s.setColumn c v).classes = s.classes
      ∧ (s.setColumn c v).columns = s.columns.set c v ∧ (s.setColumn c v).ops = s.ops
      ∧ (s.setColumn c v).reserve = s.reserve ∧ (s.setColumn c v).streak = s.streak
      ∧ (s.setColumn c v).exchange = s.exchange ∧ (s.setColumn c v).released = s.released
      ∧ (s.setColumn c v).columnRx = s.columnRx ∧ (s.setColumn c v).pollNext = s.pollNext
      ∧ (s.setColumn c v).serverRx = s.serverRx ∧ (s.setColumn c v).inbox = s.inbox
      ∧ (s.setColumn c v).replies = s.replies ∧ (s.setColumn c v).notices = s.notices
      ∧ (s.setColumn c v).sending = s.sending ∧ (s.setColumn c v).gap = s.gap
      ∧ (s.setColumn c v).restartPending = s.restartPending ∧ (s.setColumn c v).filter = s.filter
      ∧ (s.setColumn c v).mode = s.mode ∧ (s.setColumn c v).walkEnded = s.walkEnded
      ∧ (s.setColumn c v).clockMark = s.clockMark ∧ (s.setColumn c v).ledLow = s.ledLow
      ∧ (s.setColumn c v).counters = s.counters ∧ (s.setColumn c v).choices = s.choices := by
  and_intros <;> rfl

/-- Reaching a moment writes internal time alone. -/
@[simp] theorem State.reach_fields (s : State) (t : Time) :
      (s.reach t).pending = s.pending ∧ (s.reach t).held = s.held ∧ (s.reach t).now = max s.now t
      ∧ (s.reach t).entries = s.entries ∧ (s.reach t).court = s.court ∧ (s.reach t).courtNext = s.courtNext
      ∧ (s.reach t).shift = s.shift ∧ (s.reach t).lockers = s.lockers ∧ (s.reach t).classes = s.classes
      ∧ (s.reach t).columns = s.columns ∧ (s.reach t).ops = s.ops ∧ (s.reach t).reserve = s.reserve
      ∧ (s.reach t).streak = s.streak ∧ (s.reach t).exchange = s.exchange ∧ (s.reach t).released = s.released
      ∧ (s.reach t).columnRx = s.columnRx ∧ (s.reach t).pollNext = s.pollNext
      ∧ (s.reach t).serverRx = s.serverRx ∧ (s.reach t).inbox = s.inbox ∧ (s.reach t).replies = s.replies
      ∧ (s.reach t).notices = s.notices ∧ (s.reach t).sending = s.sending ∧ (s.reach t).gap = s.gap
      ∧ (s.reach t).restartPending = s.restartPending ∧ (s.reach t).filter = s.filter
      ∧ (s.reach t).mode = s.mode ∧ (s.reach t).walkEnded = s.walkEnded ∧ (s.reach t).clockMark = s.clockMark
      ∧ (s.reach t).ledLow = s.ledLow ∧ (s.reach t).counters = s.counters ∧ (s.reach t).choices = s.choices := by
  and_intros <;> rfl

/-- A reply goes to the tail of the reply queue and nothing else changes. -/
@[simp] theorem State.placeReply_fields (s : State) (r : Reply) :
      (s.placeReply r).pending = s.pending ∧ (s.placeReply r).held = s.held ∧ (s.placeReply r).now = s.now
      ∧ (s.placeReply r).entries = s.entries ∧ (s.placeReply r).court = s.court
      ∧ (s.placeReply r).courtNext = s.courtNext ∧ (s.placeReply r).shift = s.shift
      ∧ (s.placeReply r).lockers = s.lockers ∧ (s.placeReply r).classes = s.classes
      ∧ (s.placeReply r).columns = s.columns ∧ (s.placeReply r).ops = s.ops
      ∧ (s.placeReply r).reserve = s.reserve ∧ (s.placeReply r).streak = s.streak
      ∧ (s.placeReply r).exchange = s.exchange ∧ (s.placeReply r).released = s.released
      ∧ (s.placeReply r).columnRx = s.columnRx ∧ (s.placeReply r).pollNext = s.pollNext
      ∧ (s.placeReply r).serverRx = s.serverRx ∧ (s.placeReply r).inbox = s.inbox
      ∧ (s.placeReply r).replies = s.replies ++ [r] ∧ (s.placeReply r).notices = s.notices
      ∧ (s.placeReply r).sending = s.sending ∧ (s.placeReply r).gap = s.gap
      ∧ (s.placeReply r).restartPending = s.restartPending ∧ (s.placeReply r).filter = s.filter
      ∧ (s.placeReply r).mode = s.mode ∧ (s.placeReply r).walkEnded = s.walkEnded
      ∧ (s.placeReply r).clockMark = s.clockMark ∧ (s.placeReply r).ledLow = s.ledLow
      ∧ (s.placeReply r).counters = s.counters ∧ (s.placeReply r).choices = s.choices := by
  and_intros <;> rfl

/-- An answer is one reply of station 0. -/
@[simp] theorem State.answer_fields (s : State) (kind : Byte) (st : Status) (data : List Byte) :
      (s.answer kind st data).pending = s.pending ∧ (s.answer kind st data).held = s.held
      ∧ (s.answer kind st data).now = s.now ∧ (s.answer kind st data).entries = s.entries
      ∧ (s.answer kind st data).court = s.court ∧ (s.answer kind st data).courtNext = s.courtNext
      ∧ (s.answer kind st data).shift = s.shift ∧ (s.answer kind st data).lockers = s.lockers
      ∧ (s.answer kind st data).classes = s.classes ∧ (s.answer kind st data).columns = s.columns
      ∧ (s.answer kind st data).ops = s.ops ∧ (s.answer kind st data).reserve = s.reserve
      ∧ (s.answer kind st data).streak = s.streak ∧ (s.answer kind st data).exchange = s.exchange
      ∧ (s.answer kind st data).released = s.released ∧ (s.answer kind st data).columnRx = s.columnRx
      ∧ (s.answer kind st data).pollNext = s.pollNext ∧ (s.answer kind st data).serverRx = s.serverRx
      ∧ (s.answer kind st data).inbox = s.inbox
      ∧ (s.answer kind st data).replies = s.replies ++ [⟨replyKind kind, 0#4, st.code :: data, false⟩]
      ∧ (s.answer kind st data).notices = s.notices ∧ (s.answer kind st data).sending = s.sending
      ∧ (s.answer kind st data).gap = s.gap ∧ (s.answer kind st data).restartPending = s.restartPending
      ∧ (s.answer kind st data).filter = s.filter ∧ (s.answer kind st data).mode = s.mode
      ∧ (s.answer kind st data).walkEnded = s.walkEnded ∧ (s.answer kind st data).clockMark = s.clockMark
      ∧ (s.answer kind st data).ledLow = s.ledLow ∧ (s.answer kind st data).counters = s.counters
      ∧ (s.answer kind st data).choices = s.choices := by
  and_intros <;> rfl

/-- One counter counts one up and nothing else changes. -/
@[simp] theorem State.countServerDiscard_fields (s : State) :
      s.countServerDiscard.pending = s.pending ∧ s.countServerDiscard.held = s.held
      ∧ s.countServerDiscard.now = s.now ∧ s.countServerDiscard.entries = s.entries
      ∧ s.countServerDiscard.court = s.court ∧ s.countServerDiscard.courtNext = s.courtNext
      ∧ s.countServerDiscard.shift = s.shift ∧ s.countServerDiscard.lockers = s.lockers
      ∧ s.countServerDiscard.classes = s.classes ∧ s.countServerDiscard.columns = s.columns
      ∧ s.countServerDiscard.ops = s.ops ∧ s.countServerDiscard.reserve = s.reserve
      ∧ s.countServerDiscard.streak = s.streak ∧ s.countServerDiscard.exchange = s.exchange
      ∧ s.countServerDiscard.released = s.released ∧ s.countServerDiscard.columnRx = s.columnRx
      ∧ s.countServerDiscard.pollNext = s.pollNext ∧ s.countServerDiscard.serverRx = s.serverRx
      ∧ s.countServerDiscard.inbox = s.inbox ∧ s.countServerDiscard.replies = s.replies
      ∧ s.countServerDiscard.notices = s.notices ∧ s.countServerDiscard.sending = s.sending
      ∧ s.countServerDiscard.gap = s.gap ∧ s.countServerDiscard.restartPending = s.restartPending
      ∧ s.countServerDiscard.filter = s.filter ∧ s.countServerDiscard.mode = s.mode
      ∧ s.countServerDiscard.walkEnded = s.walkEnded ∧ s.countServerDiscard.clockMark = s.clockMark
      ∧ s.countServerDiscard.ledLow = s.ledLow
      ∧ s.countServerDiscard.counters = { s.counters with serverDiscarded := satInc maxCourt s.counters.serverDiscarded }
      ∧ s.countServerDiscard.choices = s.choices := by
  and_intros <;> rfl

/-- One counter counts one up and nothing else changes. -/
@[simp] theorem State.countColumnDiscard_fields (s : State) :
      s.countColumnDiscard.pending = s.pending ∧ s.countColumnDiscard.held = s.held
      ∧ s.countColumnDiscard.now = s.now ∧ s.countColumnDiscard.entries = s.entries
      ∧ s.countColumnDiscard.court = s.court ∧ s.countColumnDiscard.courtNext = s.courtNext
      ∧ s.countColumnDiscard.shift = s.shift ∧ s.countColumnDiscard.lockers = s.lockers
      ∧ s.countColumnDiscard.classes = s.classes ∧ s.countColumnDiscard.columns = s.columns
      ∧ s.countColumnDiscard.ops = s.ops ∧ s.countColumnDiscard.reserve = s.reserve
      ∧ s.countColumnDiscard.streak = s.streak ∧ s.countColumnDiscard.exchange = s.exchange
      ∧ s.countColumnDiscard.released = s.released ∧ s.countColumnDiscard.columnRx = s.columnRx
      ∧ s.countColumnDiscard.pollNext = s.pollNext ∧ s.countColumnDiscard.serverRx = s.serverRx
      ∧ s.countColumnDiscard.inbox = s.inbox ∧ s.countColumnDiscard.replies = s.replies
      ∧ s.countColumnDiscard.notices = s.notices ∧ s.countColumnDiscard.sending = s.sending
      ∧ s.countColumnDiscard.gap = s.gap ∧ s.countColumnDiscard.restartPending = s.restartPending
      ∧ s.countColumnDiscard.filter = s.filter ∧ s.countColumnDiscard.mode = s.mode
      ∧ s.countColumnDiscard.walkEnded = s.walkEnded ∧ s.countColumnDiscard.clockMark = s.clockMark
      ∧ s.countColumnDiscard.ledLow = s.ledLow
      ∧ s.countColumnDiscard.counters = { s.counters with columnDiscarded := satInc maxCourt s.counters.columnDiscarded }
      ∧ s.countColumnDiscard.choices = s.choices := by
  and_intros <;> rfl

/-- One counter counts one up and nothing else changes. -/
@[simp] theorem State.countSilent_fields (s : State) :
      s.countSilent.pending = s.pending ∧ s.countSilent.held = s.held ∧ s.countSilent.now = s.now
      ∧ s.countSilent.entries = s.entries ∧ s.countSilent.court = s.court
      ∧ s.countSilent.courtNext = s.courtNext ∧ s.countSilent.shift = s.shift
      ∧ s.countSilent.lockers = s.lockers ∧ s.countSilent.classes = s.classes
      ∧ s.countSilent.columns = s.columns ∧ s.countSilent.ops = s.ops ∧ s.countSilent.reserve = s.reserve
      ∧ s.countSilent.streak = s.streak ∧ s.countSilent.exchange = s.exchange
      ∧ s.countSilent.released = s.released ∧ s.countSilent.columnRx = s.columnRx
      ∧ s.countSilent.pollNext = s.pollNext ∧ s.countSilent.serverRx = s.serverRx
      ∧ s.countSilent.inbox = s.inbox ∧ s.countSilent.replies = s.replies ∧ s.countSilent.notices = s.notices
      ∧ s.countSilent.sending = s.sending ∧ s.countSilent.gap = s.gap
      ∧ s.countSilent.restartPending = s.restartPending ∧ s.countSilent.filter = s.filter
      ∧ s.countSilent.mode = s.mode ∧ s.countSilent.walkEnded = s.walkEnded
      ∧ s.countSilent.clockMark = s.clockMark ∧ s.countSilent.ledLow = s.ledLow
      ∧ s.countSilent.counters = { s.counters with silent := satInc maxCourt s.counters.silent }
      ∧ s.countSilent.choices = s.choices := by
  and_intros <;> rfl

/-- One counter counts one up and nothing else changes. -/
@[simp] theorem State.countMatched_fields (s : State) :
      s.countMatched.pending = s.pending ∧ s.countMatched.held = s.held ∧ s.countMatched.now = s.now
      ∧ s.countMatched.entries = s.entries ∧ s.countMatched.court = s.court
      ∧ s.countMatched.courtNext = s.courtNext ∧ s.countMatched.shift = s.shift
      ∧ s.countMatched.lockers = s.lockers ∧ s.countMatched.classes = s.classes
      ∧ s.countMatched.columns = s.columns ∧ s.countMatched.ops = s.ops ∧ s.countMatched.reserve = s.reserve
      ∧ s.countMatched.streak = s.streak ∧ s.countMatched.exchange = s.exchange
      ∧ s.countMatched.released = s.released ∧ s.countMatched.columnRx = s.columnRx
      ∧ s.countMatched.pollNext = s.pollNext ∧ s.countMatched.serverRx = s.serverRx
      ∧ s.countMatched.inbox = s.inbox ∧ s.countMatched.replies = s.replies ∧ s.countMatched.notices = s.notices
      ∧ s.countMatched.sending = s.sending ∧ s.countMatched.gap = s.gap
      ∧ s.countMatched.restartPending = s.restartPending ∧ s.countMatched.filter = s.filter
      ∧ s.countMatched.mode = s.mode ∧ s.countMatched.walkEnded = s.walkEnded
      ∧ s.countMatched.clockMark = s.clockMark ∧ s.countMatched.ledLow = s.ledLow
      ∧ s.countMatched.counters = { s.counters with matched := satInc maxCourt s.counters.matched }
      ∧ s.countMatched.choices = s.choices := by
  and_intros <;> rfl

/-- One counter counts one up and nothing else changes. -/
@[simp] theorem State.countWrong_fields (s : State) :
      s.countWrong.pending = s.pending ∧ s.countWrong.held = s.held ∧ s.countWrong.now = s.now
      ∧ s.countWrong.entries = s.entries ∧ s.countWrong.court = s.court ∧ s.countWrong.courtNext = s.courtNext
      ∧ s.countWrong.shift = s.shift ∧ s.countWrong.lockers = s.lockers ∧ s.countWrong.classes = s.classes
      ∧ s.countWrong.columns = s.columns ∧ s.countWrong.ops = s.ops ∧ s.countWrong.reserve = s.reserve
      ∧ s.countWrong.streak = s.streak ∧ s.countWrong.exchange = s.exchange ∧ s.countWrong.released = s.released
      ∧ s.countWrong.columnRx = s.columnRx ∧ s.countWrong.pollNext = s.pollNext
      ∧ s.countWrong.serverRx = s.serverRx ∧ s.countWrong.inbox = s.inbox ∧ s.countWrong.replies = s.replies
      ∧ s.countWrong.notices = s.notices ∧ s.countWrong.sending = s.sending ∧ s.countWrong.gap = s.gap
      ∧ s.countWrong.restartPending = s.restartPending ∧ s.countWrong.filter = s.filter
      ∧ s.countWrong.mode = s.mode ∧ s.countWrong.walkEnded = s.walkEnded ∧ s.countWrong.clockMark = s.clockMark
      ∧ s.countWrong.ledLow = s.ledLow
      ∧ s.countWrong.counters = { s.counters with wrong := satInc maxCourt s.counters.wrong }
      ∧ s.countWrong.choices = s.choices := by
  and_intros <;> rfl

/-- One counter counts one up and nothing else changes. -/
@[simp] theorem State.countReleaseFailed_fields (s : State) :
      s.countReleaseFailed.pending = s.pending ∧ s.countReleaseFailed.held = s.held
      ∧ s.countReleaseFailed.now = s.now ∧ s.countReleaseFailed.entries = s.entries
      ∧ s.countReleaseFailed.court = s.court ∧ s.countReleaseFailed.courtNext = s.courtNext
      ∧ s.countReleaseFailed.shift = s.shift ∧ s.countReleaseFailed.lockers = s.lockers
      ∧ s.countReleaseFailed.classes = s.classes ∧ s.countReleaseFailed.columns = s.columns
      ∧ s.countReleaseFailed.ops = s.ops ∧ s.countReleaseFailed.reserve = s.reserve
      ∧ s.countReleaseFailed.streak = s.streak ∧ s.countReleaseFailed.exchange = s.exchange
      ∧ s.countReleaseFailed.released = s.released ∧ s.countReleaseFailed.columnRx = s.columnRx
      ∧ s.countReleaseFailed.pollNext = s.pollNext ∧ s.countReleaseFailed.serverRx = s.serverRx
      ∧ s.countReleaseFailed.inbox = s.inbox ∧ s.countReleaseFailed.replies = s.replies
      ∧ s.countReleaseFailed.notices = s.notices ∧ s.countReleaseFailed.sending = s.sending
      ∧ s.countReleaseFailed.gap = s.gap ∧ s.countReleaseFailed.restartPending = s.restartPending
      ∧ s.countReleaseFailed.filter = s.filter ∧ s.countReleaseFailed.mode = s.mode
      ∧ s.countReleaseFailed.walkEnded = s.walkEnded ∧ s.countReleaseFailed.clockMark = s.clockMark
      ∧ s.countReleaseFailed.ledLow = s.ledLow
      ∧ s.countReleaseFailed.counters = { s.counters with releasesFailed := satInc maxCourt s.counters.releasesFailed }
      ∧ s.countReleaseFailed.choices = s.choices := by
  and_intros <;> rfl

/-- One counter counts one up and nothing else changes. -/
@[simp] theorem State.countExpired_fields (s : State) :
      s.countExpired.pending = s.pending ∧ s.countExpired.held = s.held ∧ s.countExpired.now = s.now
      ∧ s.countExpired.entries = s.entries ∧ s.countExpired.court = s.court
      ∧ s.countExpired.courtNext = s.courtNext ∧ s.countExpired.shift = s.shift
      ∧ s.countExpired.lockers = s.lockers ∧ s.countExpired.classes = s.classes
      ∧ s.countExpired.columns = s.columns ∧ s.countExpired.ops = s.ops ∧ s.countExpired.reserve = s.reserve
      ∧ s.countExpired.streak = s.streak ∧ s.countExpired.exchange = s.exchange
      ∧ s.countExpired.released = s.released ∧ s.countExpired.columnRx = s.columnRx
      ∧ s.countExpired.pollNext = s.pollNext ∧ s.countExpired.serverRx = s.serverRx
      ∧ s.countExpired.inbox = s.inbox ∧ s.countExpired.replies = s.replies ∧ s.countExpired.notices = s.notices
      ∧ s.countExpired.sending = s.sending ∧ s.countExpired.gap = s.gap
      ∧ s.countExpired.restartPending = s.restartPending ∧ s.countExpired.filter = s.filter
      ∧ s.countExpired.mode = s.mode ∧ s.countExpired.walkEnded = s.walkEnded
      ∧ s.countExpired.clockMark = s.clockMark ∧ s.countExpired.ledLow = s.ledLow
      ∧ s.countExpired.counters = { s.counters with expired := satInc maxCourt s.counters.expired }
      ∧ s.countExpired.choices = s.choices := by
  and_intros <;> rfl

/-- Removing an operation writes the Operation Queue alone. -/
@[simp] theorem State.removeOp_fields (s : State) (tag : Nat) :
      (s.removeOp tag).pending = s.pending ∧ (s.removeOp tag).held = s.held ∧ (s.removeOp tag).now = s.now
      ∧ (s.removeOp tag).entries = s.entries ∧ (s.removeOp tag).court = s.court
      ∧ (s.removeOp tag).courtNext = s.courtNext ∧ (s.removeOp tag).shift = s.shift
      ∧ (s.removeOp tag).lockers = s.lockers ∧ (s.removeOp tag).classes = s.classes
      ∧ (s.removeOp tag).columns = s.columns ∧ (s.removeOp tag).ops = (s.ops.filter fun op => op.tag != tag)
      ∧ (s.removeOp tag).reserve = s.reserve ∧ (s.removeOp tag).streak = s.streak
      ∧ (s.removeOp tag).exchange = s.exchange ∧ (s.removeOp tag).released = s.released
      ∧ (s.removeOp tag).columnRx = s.columnRx ∧ (s.removeOp tag).pollNext = s.pollNext
      ∧ (s.removeOp tag).serverRx = s.serverRx ∧ (s.removeOp tag).inbox = s.inbox
      ∧ (s.removeOp tag).replies = s.replies ∧ (s.removeOp tag).notices = s.notices
      ∧ (s.removeOp tag).sending = s.sending ∧ (s.removeOp tag).gap = s.gap
      ∧ (s.removeOp tag).restartPending = s.restartPending ∧ (s.removeOp tag).filter = s.filter
      ∧ (s.removeOp tag).mode = s.mode ∧ (s.removeOp tag).walkEnded = s.walkEnded
      ∧ (s.removeOp tag).clockMark = s.clockMark ∧ (s.removeOp tag).ledLow = s.ledLow
      ∧ (s.removeOp tag).counters = s.counters ∧ (s.removeOp tag).choices = s.choices := by
  and_intros <;> rfl

/-- Replacing an operation writes the Operation Queue alone. -/
@[simp] theorem State.updateOp_fields (s : State) (tag : Nat) (f : Op → Op) :
      (s.updateOp tag f).pending = s.pending ∧ (s.updateOp tag f).held = s.held ∧ (s.updateOp tag f).now = s.now
      ∧ (s.updateOp tag f).entries = s.entries ∧ (s.updateOp tag f).court = s.court
      ∧ (s.updateOp tag f).courtNext = s.courtNext ∧ (s.updateOp tag f).shift = s.shift
      ∧ (s.updateOp tag f).lockers = s.lockers ∧ (s.updateOp tag f).classes = s.classes
      ∧ (s.updateOp tag f).columns = s.columns
      ∧ (s.updateOp tag f).ops = (s.ops.map fun op => if op.tag = tag then f op else op)
      ∧ (s.updateOp tag f).reserve = s.reserve ∧ (s.updateOp tag f).streak = s.streak
      ∧ (s.updateOp tag f).exchange = s.exchange ∧ (s.updateOp tag f).released = s.released
      ∧ (s.updateOp tag f).columnRx = s.columnRx ∧ (s.updateOp tag f).pollNext = s.pollNext
      ∧ (s.updateOp tag f).serverRx = s.serverRx ∧ (s.updateOp tag f).inbox = s.inbox
      ∧ (s.updateOp tag f).replies = s.replies ∧ (s.updateOp tag f).notices = s.notices
      ∧ (s.updateOp tag f).sending = s.sending ∧ (s.updateOp tag f).gap = s.gap
      ∧ (s.updateOp tag f).restartPending = s.restartPending ∧ (s.updateOp tag f).filter = s.filter
      ∧ (s.updateOp tag f).mode = s.mode ∧ (s.updateOp tag f).walkEnded = s.walkEnded
      ∧ (s.updateOp tag f).clockMark = s.clockMark ∧ (s.updateOp tag f).ledLow = s.ledLow
      ∧ (s.updateOp tag f).counters = s.counters ∧ (s.updateOp tag f).choices = s.choices := by
  and_intros <;> rfl

/-- The end of an exchange on the line. -/
@[simp] theorem State.clearLine_fields (s : State) :
      s.clearLine.pending = s.pending ∧ s.clearLine.held = s.held ∧ s.clearLine.now = s.now
      ∧ s.clearLine.entries = s.entries ∧ s.clearLine.court = s.court ∧ s.clearLine.courtNext = s.courtNext
      ∧ s.clearLine.shift = s.shift ∧ s.clearLine.lockers = s.lockers ∧ s.clearLine.classes = s.classes
      ∧ s.clearLine.columns = s.columns ∧ s.clearLine.ops = s.ops ∧ s.clearLine.reserve = 0
      ∧ s.clearLine.streak = s.streak ∧ s.clearLine.exchange = none ∧ s.clearLine.released = some s.now
      ∧ s.clearLine.columnRx = .hunting ∧ s.clearLine.pollNext = s.pollNext ∧ s.clearLine.serverRx = s.serverRx
      ∧ s.clearLine.inbox = s.inbox ∧ s.clearLine.replies = s.replies ∧ s.clearLine.notices = s.notices
      ∧ s.clearLine.sending = s.sending ∧ s.clearLine.gap = s.gap
      ∧ s.clearLine.restartPending = s.restartPending ∧ s.clearLine.filter = s.filter
      ∧ s.clearLine.mode = s.mode ∧ s.clearLine.walkEnded = s.walkEnded ∧ s.clearLine.clockMark = s.clockMark
      ∧ s.clearLine.ledLow = s.ledLow ∧ s.clearLine.counters = s.counters ∧ s.clearLine.choices = s.choices := by
  and_intros <;> rfl

/-- Setting a quiet until writes the Column Table alone. -/
@[simp] theorem State.setQuiet_fields (s : State) (c : Col) :
      (s.setQuiet c).pending = s.pending ∧ (s.setQuiet c).held = s.held ∧ (s.setQuiet c).now = s.now
      ∧ (s.setQuiet c).entries = s.entries ∧ (s.setQuiet c).court = s.court
      ∧ (s.setQuiet c).courtNext = s.courtNext ∧ (s.setQuiet c).shift = s.shift
      ∧ (s.setQuiet c).lockers = s.lockers ∧ (s.setQuiet c).classes = s.classes
      ∧ (s.setQuiet c).columns = s.columns.set c { s.column c with quiet := some (s.now + columnSpacing) }
      ∧ (s.setQuiet c).ops = s.ops ∧ (s.setQuiet c).reserve = s.reserve ∧ (s.setQuiet c).streak = s.streak
      ∧ (s.setQuiet c).exchange = s.exchange ∧ (s.setQuiet c).released = s.released
      ∧ (s.setQuiet c).columnRx = s.columnRx ∧ (s.setQuiet c).pollNext = s.pollNext
      ∧ (s.setQuiet c).serverRx = s.serverRx ∧ (s.setQuiet c).inbox = s.inbox
      ∧ (s.setQuiet c).replies = s.replies ∧ (s.setQuiet c).notices = s.notices
      ∧ (s.setQuiet c).sending = s.sending ∧ (s.setQuiet c).gap = s.gap
      ∧ (s.setQuiet c).restartPending = s.restartPending ∧ (s.setQuiet c).filter = s.filter
      ∧ (s.setQuiet c).mode = s.mode ∧ (s.setQuiet c).walkEnded = s.walkEnded
      ∧ (s.setQuiet c).clockMark = s.clockMark ∧ (s.setQuiet c).ledLow = s.ledLow
      ∧ (s.setQuiet c).counters = s.counters ∧ (s.setQuiet c).choices = s.choices := by
  and_intros <;> rfl

/-- Queuing a notice touches the notice queue, the gap count and the counters alone. -/
@[simp] theorem State.queueNotice_fields (s : State) (n : Notice) :
      (s.queueNotice n).pending = s.pending ∧ (s.queueNotice n).held = s.held ∧ (s.queueNotice n).now = s.now
      ∧ (s.queueNotice n).entries = s.entries ∧ (s.queueNotice n).court = s.court
      ∧ (s.queueNotice n).courtNext = s.courtNext ∧ (s.queueNotice n).shift = s.shift
      ∧ (s.queueNotice n).lockers = s.lockers ∧ (s.queueNotice n).classes = s.classes
      ∧ (s.queueNotice n).columns = s.columns ∧ (s.queueNotice n).ops = s.ops
      ∧ (s.queueNotice n).reserve = s.reserve ∧ (s.queueNotice n).streak = s.streak
      ∧ (s.queueNotice n).exchange = s.exchange ∧ (s.queueNotice n).released = s.released
      ∧ (s.queueNotice n).columnRx = s.columnRx ∧ (s.queueNotice n).pollNext = s.pollNext
      ∧ (s.queueNotice n).serverRx = s.serverRx ∧ (s.queueNotice n).inbox = s.inbox
      ∧ (s.queueNotice n).replies = s.replies ∧ (s.queueNotice n).sending = s.sending
      ∧ (s.queueNotice n).restartPending = s.restartPending ∧ (s.queueNotice n).filter = s.filter
      ∧ (s.queueNotice n).mode = s.mode ∧ (s.queueNotice n).walkEnded = s.walkEnded
      ∧ (s.queueNotice n).clockMark = s.clockMark ∧ (s.queueNotice n).ledLow = s.ledLow
      ∧ (s.queueNotice n).choices = s.choices := by
  unfold State.queueNotice
  split <;> simp

/-- Queuing an operation touches the Operation Queue alone. -/
@[simp] theorem State.enqueue_fields (s : State) (op : Op) :
      (s.enqueue op).pending = s.pending ∧ (s.enqueue op).held = s.held ∧ (s.enqueue op).now = s.now
      ∧ (s.enqueue op).entries = s.entries ∧ (s.enqueue op).court = s.court
      ∧ (s.enqueue op).courtNext = s.courtNext ∧ (s.enqueue op).shift = s.shift
      ∧ (s.enqueue op).lockers = s.lockers ∧ (s.enqueue op).classes = s.classes
      ∧ (s.enqueue op).columns = s.columns ∧ (s.enqueue op).reserve = s.reserve
      ∧ (s.enqueue op).streak = s.streak ∧ (s.enqueue op).exchange = s.exchange
      ∧ (s.enqueue op).released = s.released ∧ (s.enqueue op).columnRx = s.columnRx
      ∧ (s.enqueue op).pollNext = s.pollNext ∧ (s.enqueue op).serverRx = s.serverRx
      ∧ (s.enqueue op).inbox = s.inbox ∧ (s.enqueue op).replies = s.replies ∧ (s.enqueue op).notices = s.notices
      ∧ (s.enqueue op).sending = s.sending ∧ (s.enqueue op).gap = s.gap
      ∧ (s.enqueue op).restartPending = s.restartPending ∧ (s.enqueue op).filter = s.filter
      ∧ (s.enqueue op).mode = s.mode ∧ (s.enqueue op).walkEnded = s.walkEnded
      ∧ (s.enqueue op).clockMark = s.clockMark ∧ (s.enqueue op).ledLow = s.ledLow
      ∧ (s.enqueue op).counters = s.counters ∧ (s.enqueue op).choices = s.choices := by
  unfold State.enqueue
  split <;> simp

/-- A panel message touches the Operation Queue alone. -/
@[simp] theorem State.showIfReachable_fields (s : State) (c : Col) (side : Side) (m : Message) :
      (s.showIfReachable c side m).pending = s.pending ∧ (s.showIfReachable c side m).held = s.held
      ∧ (s.showIfReachable c side m).now = s.now ∧ (s.showIfReachable c side m).entries = s.entries
      ∧ (s.showIfReachable c side m).court = s.court ∧ (s.showIfReachable c side m).courtNext = s.courtNext
      ∧ (s.showIfReachable c side m).shift = s.shift ∧ (s.showIfReachable c side m).lockers = s.lockers
      ∧ (s.showIfReachable c side m).classes = s.classes ∧ (s.showIfReachable c side m).columns = s.columns
      ∧ (s.showIfReachable c side m).reserve = s.reserve ∧ (s.showIfReachable c side m).streak = s.streak
      ∧ (s.showIfReachable c side m).exchange = s.exchange ∧ (s.showIfReachable c side m).released = s.released
      ∧ (s.showIfReachable c side m).columnRx = s.columnRx ∧ (s.showIfReachable c side m).pollNext = s.pollNext
      ∧ (s.showIfReachable c side m).serverRx = s.serverRx ∧ (s.showIfReachable c side m).inbox = s.inbox
      ∧ (s.showIfReachable c side m).replies = s.replies ∧ (s.showIfReachable c side m).notices = s.notices
      ∧ (s.showIfReachable c side m).sending = s.sending ∧ (s.showIfReachable c side m).gap = s.gap
      ∧ (s.showIfReachable c side m).restartPending = s.restartPending
      ∧ (s.showIfReachable c side m).filter = s.filter ∧ (s.showIfReachable c side m).mode = s.mode
      ∧ (s.showIfReachable c side m).walkEnded = s.walkEnded
      ∧ (s.showIfReachable c side m).clockMark = s.clockMark ∧ (s.showIfReachable c side m).ledLow = s.ledLow
      ∧ (s.showIfReachable c side m).counters = s.counters ∧ (s.showIfReachable c side m).choices = s.choices := by
  unfold State.showIfReachable
  split <;> simp

/-- A PURGE-ABORT touches the Operation Queue alone. -/
@[simp] theorem State.queueAbort_fields (s : State) (l : LockerId) (w : Bool) :
      (s.queueAbort l w).pending = s.pending ∧ (s.queueAbort l w).held = s.held ∧ (s.queueAbort l w).now = s.now
      ∧ (s.queueAbort l w).entries = s.entries ∧ (s.queueAbort l w).court = s.court
      ∧ (s.queueAbort l w).courtNext = s.courtNext ∧ (s.queueAbort l w).shift = s.shift
      ∧ (s.queueAbort l w).lockers = s.lockers ∧ (s.queueAbort l w).classes = s.classes
      ∧ (s.queueAbort l w).columns = s.columns ∧ (s.queueAbort l w).reserve = s.reserve
      ∧ (s.queueAbort l w).streak = s.streak ∧ (s.queueAbort l w).exchange = s.exchange
      ∧ (s.queueAbort l w).released = s.released ∧ (s.queueAbort l w).columnRx = s.columnRx
      ∧ (s.queueAbort l w).pollNext = s.pollNext ∧ (s.queueAbort l w).serverRx = s.serverRx
      ∧ (s.queueAbort l w).inbox = s.inbox ∧ (s.queueAbort l w).replies = s.replies
      ∧ (s.queueAbort l w).notices = s.notices ∧ (s.queueAbort l w).sending = s.sending
      ∧ (s.queueAbort l w).gap = s.gap ∧ (s.queueAbort l w).restartPending = s.restartPending
      ∧ (s.queueAbort l w).filter = s.filter ∧ (s.queueAbort l w).mode = s.mode
      ∧ (s.queueAbort l w).walkEnded = s.walkEnded ∧ (s.queueAbort l w).clockMark = s.clockMark
      ∧ (s.queueAbort l w).ledLow = s.ledLow ∧ (s.queueAbort l w).counters = s.counters
      ∧ (s.queueAbort l w).choices = s.choices := by
  unfold State.queueAbort
  split
  · simp
  · split <;> simp

/-- A GAP notice touches the notice queue and the gap count alone. -/
@[simp] theorem State.fillGap_fields (s : State) :
      s.fillGap.pending = s.pending ∧ s.fillGap.held = s.held ∧ s.fillGap.now = s.now
      ∧ s.fillGap.entries = s.entries ∧ s.fillGap.court = s.court ∧ s.fillGap.courtNext = s.courtNext
      ∧ s.fillGap.shift = s.shift ∧ s.fillGap.lockers = s.lockers ∧ s.fillGap.classes = s.classes
      ∧ s.fillGap.columns = s.columns ∧ s.fillGap.ops = s.ops ∧ s.fillGap.reserve = s.reserve
      ∧ s.fillGap.streak = s.streak ∧ s.fillGap.exchange = s.exchange ∧ s.fillGap.released = s.released
      ∧ s.fillGap.columnRx = s.columnRx ∧ s.fillGap.pollNext = s.pollNext ∧ s.fillGap.serverRx = s.serverRx
      ∧ s.fillGap.inbox = s.inbox ∧ s.fillGap.replies = s.replies ∧ s.fillGap.sending = s.sending
      ∧ s.fillGap.restartPending = s.restartPending ∧ s.fillGap.filter = s.filter ∧ s.fillGap.mode = s.mode
      ∧ s.fillGap.walkEnded = s.walkEnded ∧ s.fillGap.clockMark = s.clockMark ∧ s.fillGap.ledLow = s.ledLow
      ∧ s.fillGap.counters = s.counters ∧ s.fillGap.choices = s.choices := by
  unfold State.fillGap
  split <;> simp

/-- The transmitter touches the reply queue, the notice queue, the gap count and itself alone. -/
@[simp] theorem State.transmit_fields (s : State) :
      s.transmit.pending = s.pending ∧ s.transmit.held = s.held ∧ s.transmit.now = s.now
      ∧ s.transmit.entries = s.entries ∧ s.transmit.court = s.court ∧ s.transmit.courtNext = s.courtNext
      ∧ s.transmit.shift = s.shift ∧ s.transmit.lockers = s.lockers ∧ s.transmit.classes = s.classes
      ∧ s.transmit.columns = s.columns ∧ s.transmit.ops = s.ops ∧ s.transmit.reserve = s.reserve
      ∧ s.transmit.streak = s.streak ∧ s.transmit.exchange = s.exchange ∧ s.transmit.released = s.released
      ∧ s.transmit.columnRx = s.columnRx ∧ s.transmit.pollNext = s.pollNext ∧ s.transmit.serverRx = s.serverRx
      ∧ s.transmit.inbox = s.inbox ∧ s.transmit.restartPending = s.restartPending ∧ s.transmit.filter = s.filter
      ∧ s.transmit.mode = s.mode ∧ s.transmit.walkEnded = s.walkEnded ∧ s.transmit.clockMark = s.clockMark
      ∧ s.transmit.ledLow = s.ledLow ∧ s.transmit.counters = s.counters ∧ s.transmit.choices = s.choices := by
  unfold State.transmit
  split
  · simp
  · split <;> simp

/-- Two states with the same fields are the same. -/
theorem State.eq_of_fields {s t : State}
    (h_pending : s.pending = t.pending) (h_held : s.held = t.held) (h_now : s.now = t.now)
    (h_entries : s.entries = t.entries) (h_court : s.court = t.court)
    (h_courtNext : s.courtNext = t.courtNext) (h_shift : s.shift = t.shift)
    (h_lockers : s.lockers = t.lockers) (h_classes : s.classes = t.classes)
    (h_columns : s.columns = t.columns) (h_ops : s.ops = t.ops) (h_reserve : s.reserve = t.reserve)
    (h_streak : s.streak = t.streak) (h_exchange : s.exchange = t.exchange)
    (h_released : s.released = t.released) (h_columnRx : s.columnRx = t.columnRx)
    (h_pollNext : s.pollNext = t.pollNext) (h_serverRx : s.serverRx = t.serverRx)
    (h_inbox : s.inbox = t.inbox) (h_replies : s.replies = t.replies)
    (h_notices : s.notices = t.notices) (h_sending : s.sending = t.sending) (h_gap : s.gap = t.gap)
    (h_restartPending : s.restartPending = t.restartPending) (h_filter : s.filter = t.filter)
    (h_mode : s.mode = t.mode) (h_walkEnded : s.walkEnded = t.walkEnded)
    (h_clockMark : s.clockMark = t.clockMark) (h_ledLow : s.ledLow = t.ledLow)
    (h_counters : s.counters = t.counters) (h_choices : s.choices = t.choices) : s = t := by
  cases s; cases t; simp_all only

end Sys2Proof.Machine
end

