-- ==== Sys2Proof/Laws/Ops.lean ====
section
/-! SUPPORT. What the shared operations do, said once: events, requests, lookups, the queues, expiry. -/

namespace Sys2Proof.Machine

open Config

/-! ## Events and requests -/

/-- An event of a part that runs. -/
theorem event_running {s : State} (h : s.held = false) (f : State → State) :
    event f s = .next (f s).transmit := by
  simp [event, h]

/-- An event of a held part changes nothing. -/
theorem event_held {s : State} (h : s.held = true) (f : State → State) : event f s = .next s := by
  simp [event, h]

/-- MI may take a frame whose head is a request. -/
theorem State.HeadIs.canTake {s : State} {k : Byte} {b : List Byte} {rest : List InboxFrame}
    (h : s.HeadIs k b rest) : s.canTake = true := by
  obtain ⟨_, h2, h3, _⟩ := h
  simp [State.canTake, State.replyRoom, h2, h3, replySize]

/-- A request at the head of the inbox is taken and acted on. -/
theorem event_takeRequest {s : State} {k : Byte} {b : List Byte} {rest : List InboxFrame}
    (h : s.HeadIs k b rest) (act : State → List Byte → State) :
    event (fun s => s.takeRequest k act) s = .next (act { s with inbox := rest } b).transmit := by
  have hc := h.canTake
  obtain ⟨h1, _, _, h4⟩ := h
  simp [event, h1, State.takeRequest, h4, hc]

/-- The answer to a request that has just been taken. -/
theorem State.answer_taken (s : State) (rest : List InboxFrame) (k : Byte) (st : Status) (d : List Byte) :
    State.answer { s with inbox := rest } k st d = s.answered rest (replyKind k) (st.code :: d) := rfl

/-! ## Records -/

@[simp] theorem State.entry_setEntry (s : State) (i j : Slot) (e : Option Reservation) :
    (s.setEntry i e).entry j = if i = j then e else s.entry j := Bank.get_set _ _ _ _

@[simp] theorem State.locker_setLocker (s : State) (l k : LockerId) (v : Locker) :
    (s.setLocker l v).locker k = if l = k then v else s.locker k := Bank.get_set _ _ _ _

@[simp] theorem State.column_setColumn (s : State) (c k : Col) (v : Column) :
    (s.setColumn c v).column k = if c = k then v else s.column k := Bank.get_set _ _ _ _

@[simp] theorem State.locker_enterLocker (s : State) (l k : LockerId) (st : LockerState) :
    (s.enterLocker l st).locker k = if l = k then (s.locker l).enter st else s.locker k :=
  Bank.get_set _ _ _ _

@[simp] theorem State.locker_setEntry (s : State) (i : Slot) (e : Option Reservation) (k : LockerId) :
    (s.setEntry i e).locker k = s.locker k := rfl

@[simp] theorem State.column_setEntry (s : State) (i : Slot) (e : Option Reservation) (c : Col) :
    (s.setEntry i e).column c = s.column c := rfl

@[simp] theorem State.entry_setLocker (s : State) (l : LockerId) (v : Locker) (i : Slot) :
    (s.setLocker l v).entry i = s.entry i := rfl

@[simp] theorem State.column_setLocker (s : State) (l : LockerId) (v : Locker) (c : Col) :
    (s.setLocker l v).column c = s.column c := rfl

@[simp] theorem State.entry_enterLocker (s : State) (l : LockerId) (st : LockerState) (i : Slot) :
    (s.enterLocker l st).entry i = s.entry i := rfl

@[simp] theorem State.column_enterLocker (s : State) (l : LockerId) (st : LockerState) (c : Col) :
    (s.enterLocker l st).column c = s.column c := rfl

@[simp] theorem State.entry_setColumn (s : State) (c : Col) (v : Column) (i : Slot) :
    (s.setColumn c v).entry i = s.entry i := rfl

@[simp] theorem State.locker_setColumn (s : State) (c : Col) (v : Column) (k : LockerId) :
    (s.setColumn c v).locker k = s.locker k := rfl

/-! ## Lookups (01 R5) -/

/-- A tag that an entry holds is found in its slot. -/
theorem State.findTag_held {s : State} (hu : s.UniqueKeys) {i : Slot} {r : Reservation}
    (hi : s.entry i = some r) : s.findTag r.tag = some i := by
  unfold State.findTag State.lookup
  rw [Bank.find_some]
  refine ⟨?_, fun j hj => ?_⟩
  · show (s.entry i).any _ = true
    simp [hi]
  · show (s.entry j).any _ = false
    cases hq : s.entry j with
    | none => rfl
    | some q =>
      simp only [Option.any_some, beq_eq_false_iff_ne, ne_eq]
      exact fun hqt => absurd (hu j i q r hq hi (Or.inl hqt)) (ne_of_lt hj)

/-- A tag that no entry holds is not found. -/
theorem State.findTag_free {s : State} {tag : Nat} (h : ∀ i r, s.entry i = some r → r.tag ≠ tag) :
    s.findTag tag = none := by
  unfold State.findTag State.lookup
  rw [Bank.find_none]
  intro j
  show (s.entry j).any _ = false
  cases hq : s.entry j with
  | none => rfl
  | some q => simpa using h j q hq

/-- A code that an entry holds is found in its slot. -/
theorem State.findCode_held {s : State} (hu : s.UniqueKeys) {i : Slot} {r : Reservation}
    (hi : s.entry i = some r) : s.findCode r.code = some i := by
  unfold State.findCode State.lookup
  rw [Bank.find_some]
  refine ⟨?_, fun j hj => ?_⟩
  · show (s.entry i).any _ = true
    simp [hi]
  · show (s.entry j).any _ = false
    cases hq : s.entry j with
    | none => rfl
    | some q =>
      simp only [Option.any_some, beq_eq_false_iff_ne, ne_eq]
      exact fun hqt => absurd (hu j i q r hq hi (Or.inr hqt)) (ne_of_lt hj)

/-- A code that no entry holds is not found. -/
theorem State.findCode_free {s : State} {code : Nat} (h : ∀ i r, s.entry i = some r → r.code ≠ code) :
    s.findCode code = none := by
  unfold State.findCode State.lookup
  rw [Bank.find_none]
  intro j
  show (s.entry j).any _ = false
  cases hq : s.entry j with
  | none => rfl
  | some q => simpa using h j q hq

/-- The lowest FREE slot is the one found. -/
theorem State.find_free {s : State} {i : Slot} (hi : s.entry i = none) (hl : ∀ j, j < i → s.entry j ≠ none) :
    s.entries.find (fun e => e.isNone) = some i := by
  rw [Bank.find_some]
  refine ⟨?_, fun j hj => ?_⟩
  · show (s.entry i).isNone = true
    simp [hi]
  · show (s.entry j).isNone = false
    have := hl j hj
    cases h : s.entry j with
    | none => exact absurd h this
    | some q => rfl

/-- With no FREE slot none is found. -/
theorem State.find_full {s : State} (h : ∀ i, s.entry i ≠ none) :
    s.entries.find (fun e => e.isNone) = none := by
  rw [Bank.find_none]
  intro j
  show (s.entry j).isNone = false
  cases hj : s.entry j with
  | none => exact absurd hj (h j)
  | some q => rfl

/-! ## Expiry (01 R12 to R16) -/

/-- The window-close action leaves a FREE slot. -/
theorem State.windowDue_free {s : State} {i : Slot} (h : s.entry i = none) : s.windowDue i = s := by
  simp [State.windowDue, h]

/-- The window-close action leaves an entry that is not overdue. -/
theorem State.windowDue_early {s : State} {i : Slot} {r : Reservation} (h : s.entry i = some r)
    (ho : s.overdue r = false) : s.windowDue i = s := by
  simp [State.windowDue, h, ho]

/-- The window-close action ends a BOOKED entry that is overdue. -/
theorem State.windowDue_booked {s : State} {i : Slot} {r : Reservation} (h : s.entry i = some r)
    (ho : s.overdue r = true) (hs : r.stage = .booked) :
    s.windowDue i = (s.setEntry i none).queueNotice (.expired r.tag .notLoaded none) := by
  simp [State.windowDue, State.endEntry, h, ho, hs, Stage.locker]

/-- A timed reason expires a READY entry, and its locker becomes SPOILED. -/
theorem State.bringTimed_ready {s : State} {i : Slot} {r : Reservation} {l : LockerId} {at_ : Nat}
    (h : s.entry i = some r) (hs : r.stage = .ready l at_) {why : Reason} (hw : why ≠ .notLoaded) :
    s.bringTimed i why =
      State.queueNotice
        (State.countExpired ((s.enterLocker l (.spoiled (some ⟨r.tag, why⟩))).setEntry i none))
        (.expired r.tag why (some l)) := by
  simp [State.bringTimed, State.expireSpoiled, State.expire, State.endEntry, h, hs, hw, Stage.locker]

/-- A timed reason stands as expiry pending of a RELEASING entry unless one stands. -/
theorem State.bringTimed_releasing {s : State} {i : Slot} {r : Reservation} {l : LockerId} {at_ : Nat}
    {p : Option Reason} (h : s.entry i = some r) (hs : r.stage = .releasing l at_ p) (why : Reason) :
    s.bringTimed i why = s.setEntry i (some { r with stage := .releasing l at_ (some (p.getD why)) }) := by
  cases p <;> simp [State.bringTimed, h, hs, Stage.withPending]

/-- A timed reason stands as expiry pending of an OPEN entry unless one stands. -/
theorem State.bringTimed_opened {s : State} {i : Slot} {r : Reservation} {l : LockerId} {at_ : Nat}
    {p : Option Reason} (h : s.entry i = some r) (hs : r.stage = .opened l at_ p) (why : Reason) :
    s.bringTimed i why = s.setEntry i (some { r with stage := .opened l at_ (some (p.getD why)) }) := by
  cases p <;> simp [State.bringTimed, h, hs, Stage.withPending]

/-! ## The Operation Queue (09 R168) -/

/-- An operation enters at the tail under the lowest free tag while there is room. -/
theorem State.enqueue_room {s : State} (h : 0 < s.freeEntries) (op : Op) :
    s.enqueue op =
      { s with ops := s.ops ++ [{ op with tag := s.lowestTag, notBefore := s.now, inFlight := false }] } := by
  simp [State.enqueue, State.hasRoom, h]

/-- A full queue takes no operation. -/
theorem State.enqueue_full {s : State} (h : s.freeEntries = 0) (op : Op) : s.enqueue op = s := by
  simp [State.enqueue, State.hasRoom, h]

/-- The lowest free tag lies in 1 to 31 and belongs to no operation, where some shared entry is free. -/
theorem State.lowestTag_spec {s : State} (h : ∃ t, 1 ≤ t ∧ t ≤ 31 ∧ ∀ op ∈ s.ops, op.tag ≠ t) :
    1 ≤ s.lowestTag ∧ s.lowestTag ≤ 31 ∧ (∀ op ∈ s.ops, op.tag ≠ s.lowestTag)
      ∧ ∀ k, 1 ≤ k → k < s.lowestTag → ∃ op ∈ s.ops, op.tag = k := by
  unfold State.lowestTag
  cases hf : (List.range' 1 sharedEntries).find? fun t => s.ops.all fun op => op.tag != t with
  | none =>
    obtain ⟨t, h1, h2, h3⟩ := h
    have := List.find?_eq_none.mp hf t (by simp [List.mem_range', sharedEntries]; exact ⟨t - 1, by omega⟩)
    simp at this
    obtain ⟨op, ho, ht⟩ := this
    exact absurd ht (h3 op ho)
  | some t =>
    have hp := List.find?_some hf
    have hm := List.mem_of_find?_eq_some hf
    simp only [Option.getD_some]
    simp only [List.mem_range'_1, sharedEntries] at hm
    refine ⟨hm.1, by omega, by simpa using hp, fun k hk hlt => ?_⟩
    obtain ⟨_, as, bs, heq, hb⟩ := List.find?_eq_some_iff_append.mp hf
    have hkm : k ∈ List.range' 1 sharedEntries := by
      simp [List.mem_range'_1, sharedEntries]; omega
    have hsorted : (List.range' 1 sharedEntries).Pairwise (· < ·) := by decide
    rw [heq] at hkm hsorted
    have hka : k ∈ as := by
      rcases List.mem_append.mp hkm with hh | hh
      · exact hh
      · exfalso
        rcases List.mem_cons.mp hh with rfl | hh
        · omega
        · have := (List.pairwise_cons.mp (List.pairwise_append.mp hsorted).2.1).1 k hh
          omega
    have := hb k hka
    simpa using this

/-! ## Characters on the server port (07 R132 to R134) -/

/-- A receiver that hunts has no gap to wait for. -/
@[simp] theorem Receiver.lapsed_hunting (port : Port) (t : Time) : Receiver.hunting.lapsed port t = false := rfl

/-- A receiver that hears characters one after another. -/
theorem Receiver.hear_cons (port : Port) (r : Receiver) (ch : LineChar) (chs : List LineChar) :
    r.hear port (ch :: chs) =
      let r0 := if r.lapsed port ch.start then Receiver.hunting else r
      (((r0.take port ch).1.hear port chs).1,
        (if r.lapsed port ch.start then [.discarded] else []) ++ (r0.take port ch).2.toList
          ++ ((r0.take port ch).1.hear port chs).2) := rfl

/-- What the server port does with a frame touches neither its receiver nor internal time. -/
theorem State.serverFound_frame (s : State) (t : Time) (r : Receiver) (e : RxEvent) :
    State.serverFound { s with now := t, serverRx := r } e = { s.serverFound e with now := t, serverRx := r } := by
  cases e with
  | discarded => rfl
  | complete chars =>
    have hr : State.replyRoom { s with now := t, serverRx := r } = s.replyRoom := rfl
    simp only [State.serverFound, State.judgeServerFrame, State.offerInbox, hr]
    split
    · split
      · rfl
      · cases s.replyRoom <;> rfl
    · rfl

/-- Characters in which the server port finds nothing. -/
theorem State.serverChars_quiet {s : State} {chars : List LineChar} {r : Receiver}
    (h : s.serverRx.hear .server chars = (r, [])) :
    s.serverChars chars = { s with now := heardBy .server s.now chars, serverRx := r } := by
  induction chars generalizing s with
  | nil => cases h; rfl
  | cons ch chs ih =>
    rw [Receiver.hear_cons] at h
    obtain ⟨h1, h2⟩ := Prod.mk.inj h
    simp only [List.append_eq_nil_iff] at h2
    obtain ⟨⟨hg, hf⟩, hl⟩ := h2
    have hg : s.serverRx.lapsed .server ch.start = false := by
      by_contra hc
      simp [hc] at hg
    simp only [hg, Bool.false_eq_true, if_false] at h1 hf hl
    have hf : (s.serverRx.take .server ch).2 = none := by simpa using hf
    have hs : s.serverChar ch =
        { s with now := max s.now (stopBit .server ch), serverRx := (s.serverRx.take .server ch).1 } := by
      simp [State.serverChar, hg, State.reach, hf]
    show State.serverChars (s.serverChar ch) chs = _
    rw [hs, ih (Prod.ext h1 hl)]
    rfl

/-- Characters in which the server port finds one frame or one break: it is acted on when all are heard. -/
theorem State.serverChars_found {s : State} {chars : List LineChar} {r : Receiver} {e : RxEvent}
    (h : s.serverRx.hear .server chars = (r, [e])) :
    s.serverChars chars =
      State.serverFound { s with now := heardBy .server s.now chars, serverRx := r } e := by
  induction chars generalizing s with
  | nil => cases h
  | cons ch chs ih =>
    rw [Receiver.hear_cons] at h
    obtain ⟨h1, h2⟩ := Prod.mk.inj h
    show State.serverChars (s.serverChar ch) chs = _
    by_cases hg : s.serverRx.lapsed .server ch.start = true
    · obtain ⟨cs, last, hr⟩ : ∃ cs last, s.serverRx = .assembling cs last := by
        cases hr : s.serverRx with
        | hunting => rw [hr] at hg; cases hg
        | assembling cs last => exact ⟨cs, last, rfl⟩
      simp only [hg, if_true, List.cons_append, List.cons.injEq, List.append_eq_nil_iff] at h1 h2
      obtain ⟨he, hf, hl⟩ := h2
      have hf : (Receiver.hunting.take .server ch).2 = none := by simpa using hf
      have ht : last + gapLimit .server ≤ stopBit .server ch := by
        rw [hr] at hg
        have hg : last + gapLimit .server < ch.start := by simpa [Receiver.lapsed, Receiver.gapEnd] using hg
        exact le_of_lt (lt_of_lt_of_le hg (Nat.le_add_right _ _))
      have hs : s.serverChar ch =
          { s.serverFound e with now := max s.now (stopBit .server ch)
                                 serverRx := (Receiver.hunting.take .server ch).1 } := by
        have hgap : s.serverGap =
            { s.serverFound e with now := max s.now (last + gapLimit .server), serverRx := .hunting } := by
          simp only [State.serverGap, hr, Receiver.gapEnd, State.reach, ← he]
          rfl
        simp only [State.serverChar, hg, if_true, hgap, State.reach, hf, max_assoc, max_eq_right ht]
      rw [hs, State.serverChars_quiet (Prod.ext h1 hl)]
      exact (State.serverFound_frame s _ r e).symm
    · have hg : s.serverRx.lapsed .server ch.start = false := by simpa using hg
      simp only [hg, Bool.false_eq_true, if_false, List.nil_append] at h1 h2
      cases hf : (s.serverRx.take .server ch).2 with
      | none =>
        have hs : s.serverChar ch =
            { s with now := max s.now (stopBit .server ch), serverRx := (s.serverRx.take .server ch).1 } := by
          simp [State.serverChar, hg, State.reach, hf]
        rw [hf] at h2
        rw [hs, ih (Prod.ext h1 (by simpa using h2))]
        rfl
      | some e1 =>
        rw [hf] at h2
        simp only [Option.toList_some, List.singleton_append, List.cons.injEq] at h2
        have hs : s.serverChar ch =
            { s.serverFound e1 with now := max s.now (stopBit .server ch)
                                    serverRx := (s.serverRx.take .server ch).1 } := by
          rw [← State.serverFound_frame]
          simp [State.serverChar, hg, State.reach, hf]
        rw [hs, State.serverChars_quiet (Prod.ext h1 h2.2), h2.1]
        exact (State.serverFound_frame s _ r e).symm

/-! ## Frames on the column line (07 R135, 08 R149) -/

/-- A corrupt frame while the window is open is counted, and nothing else happens. -/
theorem State.corruptFrame_open {s : State} {x : Exchange} {c : Col} (hs : x.stage = .awaiting)
    (hw : s.now < x.requestEnd + replyWindow) : s.corruptFrame x c = s.countColumnDiscard := by
  have h1 : s.countColumnDiscard.windowOver x = false := by
    simp only [State.windowOver, decide_eq_false_iff_not, not_le]
    exact hw
  simp [State.corruptFrame, hs, h1]

/-- A corrupt frame once the window has closed is counted and ends the try. -/
theorem State.corruptFrame_over {s : State} {x : Exchange} {c : Col}
    (hw : x.requestEnd + replyWindow ≤ s.now) :
    s.corruptFrame x c = s.countColumnDiscard.endTry x c := by
  have h1 : s.countColumnDiscard.windowOver x = true := by
    simp only [State.windowOver, decide_eq_true_eq]
    exact hw
  simp [State.corruptFrame, h1]

/-- A frame broken off while the reply is awaited is corrupt. -/
theorem State.columnFound_discarded {s : State} {x : Exchange} {c : Col} (hx : s.exchange = some x)
    (hd : x.dest = .column c) (hs : x.stage.listens = true) :
    s.columnFound .discarded = s.corruptFrame x c := by
  simp [State.columnFound, hx, hd, hs]

/-- A complete frame that is not the reply is corrupt. -/
theorem State.columnFound_other {s : State} {x : Exchange} {c : Col} {chars : List Byte}
    (hx : s.exchange = some x) (hd : x.dest = .column c) (hs : x.stage.listens = true)
    (ha : x.accepts c chars = none) : s.columnFound (.complete chars) = s.corruptFrame x c := by
  simp [State.columnFound, hx, hd, hs, ha]

/-- The reply awaited ends the exchange. -/
theorem State.columnFound_reply {s : State} {x : Exchange} {c : Col} {chars : List Byte} {fl : Flags}
    {f : Frame} (hx : s.exchange = some x) (hd : x.dest = .column c) (hs : x.stage.listens = true)
    (ha : x.accepts c chars = some (fl, f)) :
    s.columnFound (.complete chars) = s.endExchange x c (.good fl f.kind f.body) := by
  simp [State.columnFound, hx, hd, hs, ha]

/-- The receiver attends to every character of a frame it assembles, and to one that begins in the window. -/
theorem State.attends_of {s : State} {x : Exchange} {c : Col} {t : Time} (hx : s.exchange = some x)
    (hd : x.dest = .column c) (hs : x.stage.listens = true)
    (h : s.columnRx.busy = true ∨ x.inWindow t = true) : s.attends t = true := by
  rcases h with h | h <;> simp [State.attends, hx, hd, hs, h]

/-- A character attended to, its gap within the limit, goes into the receiver. -/
theorem State.columnChar_quiet {s : State} {ch : LineChar} {r : Receiver}
    (hg : s.columnRx.lapsed .column ch.start = false) (ha : s.attends ch.start = true)
    (ht : s.columnRx.take .column ch = (r, none)) :
    s.columnChar ch = { s with now := max s.now (stopBit .column ch), columnRx := r } := by
  have ha' : State.attends { s with now := max s.now (stopBit .column ch) } ch.start = true := ha
  simp [State.columnChar, hg, State.reach, ha', ht]

/-- A character that completes or breaks a frame brings what the receiver finds. -/
theorem State.columnChar_found {s : State} {ch : LineChar} {r : Receiver} {e : RxEvent}
    (hg : s.columnRx.lapsed .column ch.start = false) (ha : s.attends ch.start = true)
    (ht : s.columnRx.take .column ch = (r, some e)) :
    s.columnChar ch =
      State.columnFound { s with now := max s.now (stopBit .column ch), columnRx := r } e := by
  have ha' : State.attends { s with now := max s.now (stopBit .column ch) } ch.start = true := ha
  simp [State.columnChar, hg, State.reach, ha', ht]

/-- A receiver that finds nothing in characters and does not hunt after them. -/
theorem Receiver.hear_quiet_cons {port : Port} {r : Receiver} {ch : LineChar} {chs : List LineChar}
    {q : Receiver} (h : r.hear port (ch :: chs) = (q, [])) :
    r.lapsed port ch.start = false ∧ (r.take port ch).2 = none
      ∧ (r.take port ch).1.hear port chs = (q, []) := by
  rw [Receiver.hear_cons] at h
  obtain ⟨h1, h2⟩ := Prod.mk.inj h
  simp only [List.append_eq_nil_iff] at h2
  obtain ⟨⟨hg, hf⟩, hl⟩ := h2
  have hg : r.lapsed port ch.start = false := by
    by_contra hc
    simp [hc] at hg
  simp only [hg, Bool.false_eq_true, if_false] at h1 hf hl
  exact ⟨hg, by simpa using hf, Prod.ext h1 hl⟩

/-- A receiver that assembles goes on assembling until it finds something. -/
theorem Receiver.take_busy {port : Port} {r : Receiver} {ch : LineChar} (hb : r.busy = true)
    (h : (r.take port ch).2 = none) : (r.take port ch).1.busy = true := by
  cases r with
  | hunting => cases hb
  | assembling cs last =>
    unfold Receiver.take at h ⊢
    cases hc : ch.byte with
    | none => simp [hc] at h
    | some b =>
      simp only [hc] at h ⊢
      split
      · rfl
      · rename_i h4
        simp only [h4, if_false] at h
        split
        · rename_i h5
          simp [h5] at h
        · rename_i h5
          simp only [h5, if_false] at h
          split
          · rename_i h6
            simp [h6] at h
          · rfl

/-- Characters of a frame being assembled, in which nothing is found yet. -/
theorem State.columnChars_busy {s : State} {x : Exchange} {c : Col} {chars : List LineChar} {r : Receiver}
    (hx : s.exchange = some x) (hd : x.dest = .column c) (hs : x.stage.listens = true)
    (hb : s.columnRx.busy = true) (h : s.columnRx.hear .column chars = (r, [])) :
    s.columnChars chars = { s with now := heardBy .column s.now chars, columnRx := r } := by
  induction chars generalizing s with
  | nil => cases h; rfl
  | cons ch chs ih =>
    obtain ⟨hg, hf, hl⟩ := Receiver.hear_quiet_cons h
    have hq := State.columnChar_quiet hg (State.attends_of hx hd hs (Or.inl hb)) (Prod.ext rfl hf)
    show State.columnChars (s.columnChar ch) chs = _
    rw [hq]
    exact ih (s := { s with now := max s.now (stopBit .column ch), columnRx := (s.columnRx.take .column ch).1 })
      hx (Receiver.take_busy hb hf) hl

/-- Characters that begin in the reply window and in which nothing is found yet. -/
theorem State.columnChars_begun {s : State} {x : Exchange} {c : Col} {chars : List LineChar} {cs : List Byte}
    {last : Time} (hs : s.Awaits x c) (ho : x.opensWith chars)
    (h : Receiver.hunting.hear .column chars = (.assembling cs last, [])) :
    s.columnChars chars =
      { s with now := heardBy .column s.now chars, columnRx := .assembling cs last } := by
  obtain ⟨_, hx, hd, hst, hr⟩ := hs
  obtain ⟨ch, rest, rfl, hm, hlo, hhi⟩ := ho
  have hw : x.inWindow ch.start = true := by
    simp only [Exchange.inWindow, Bool.and_eq_true, decide_eq_true_eq]
    exact ⟨hlo, hhi⟩
  have hl : x.stage.listens = true := by rw [hst]; rfl
  obtain ⟨hg, hf, ht⟩ := Receiver.hear_quiet_cons h
  rw [← hr] at hg hf ht
  have hq := State.columnChar_quiet hg (State.attends_of hx hd hl (Or.inr hw)) (Prod.ext rfl hf)
  show State.columnChars (s.columnChar ch) rest = _
  have hb : (s.columnRx.take .column ch).1.busy = true := by
    rw [hr]
    simp [Receiver.take, hm, Receiver.busy]
  rw [hq]
  exact State.columnChars_busy
    (s := { s with now := max s.now (stopBit .column ch), columnRx := (s.columnRx.take .column ch).1 })
    hx hd hl hb ht

/-- Characters one after another, in two runs. -/
theorem State.columnChars_append (s : State) (pre post : List LineChar) :
    s.columnChars (pre ++ post) = (s.columnChars pre).columnChars post := List.foldl_append ..

/-- The character that ends a frame begun in the reply window brings what the receiver finds. -/
theorem State.columnChars_last {s : State} {x : Exchange} {c : Col} {pre : List LineChar} {ch : LineChar}
    {cs : List Byte} {last : Time} {r : Receiver} {e : RxEvent} (hs : s.Awaits x c) (ho : x.opensWith pre)
    (h : Receiver.hunting.hear .column pre = (.assembling cs last, []))
    (hg : ch.start ≤ last + gapLimit .column)
    (ht : (Receiver.assembling cs last).take .column ch = (r, some e)) :
    s.columnChars (pre ++ [ch]) =
      State.columnFound { s with now := heardBy .column s.now (pre ++ [ch]), columnRx := r } e := by
  have ⟨_, hx, hd, hst, _⟩ := hs
  have hl : x.stage.listens = true := by rw [hst]; rfl
  rw [State.columnChars_append, State.columnChars_begun hs ho h]
  have hg : (Receiver.assembling cs last).lapsed .column ch.start = false := by
    simpa [Receiver.lapsed, Receiver.gapEnd] using hg
  have := State.columnChar_found
    (s := { s with now := heardBy .column s.now pre, columnRx := .assembling cs last }) hg
    (State.attends_of hx hd hl (Or.inl rfl)) ht
  simpa [heardBy, State.columnChars] using this

/-- What a receiver finds in two runs of characters, one after the other. -/
theorem Receiver.hear_append (port : Port) (r : Receiver) (pre post : List LineChar) :
    r.hear port (pre ++ post) =
      (((r.hear port pre).1.hear port post).1,
        (r.hear port pre).2 ++ ((r.hear port pre).1.hear port post).2) := by
  induction pre generalizing r with
  | nil => rfl
  | cons a as ih => simp only [List.cons_append, Receiver.hear_cons, ih, List.append_assoc]

/-- A frame of the try awaited, or of one whose window has closed upon it, is acted on at its last character. -/
theorem State.columnChars_findsLast {s : State} {x : Exchange} {c : Col} {chars : List LineChar} {e : RxEvent}
    (h : s.Awaits x c ∧ x.opensWith chars
      ∨ s.exchange = some x ∧ x.dest = .column c ∧ x.stage.listens = true ∧ s.columnRx.busy = true)
    (hf : s.columnRx.findsLast .column chars e) :
    s.columnChars chars =
      State.columnFound { s with now := heardBy .column s.now chars, columnRx := .hunting } e := by
  obtain ⟨init, ch, cs, last, rfl, hi, hg, hl⟩ := hf
  have hn : (Receiver.assembling cs last).lapsed .column ch.start = false := by
    simpa [Receiver.lapsed, Receiver.gapEnd] using hg
  have ht : (Receiver.assembling cs last).take .column ch = (.hunting, some e) := by
    rw [Receiver.hear_append, hi, Receiver.hear_cons] at hl
    simp only [hn, Bool.false_eq_true, if_false, List.nil_append, Receiver.hear, List.append_nil,
      Prod.mk.injEq] at hl
    refine Prod.ext hl.1 ?_
    cases h2 : ((Receiver.assembling cs last).take .column ch).2 with
    | none => simp [h2] at hl
    | some e1 => simpa [h2] using hl.2
  rcases h with ⟨ha, ho⟩ | ⟨hx, hd, hs, hb⟩
  · rw [ha.2.2.2.2] at hi
    cases init with
    | nil => cases hi
    | cons a as =>
      obtain ⟨b, rest, hc, hm⟩ := ho
      cases hc
      exact State.columnChars_last ha ⟨a, as, rfl, hm⟩ hi hg ht
  · rw [State.columnChars_append, State.columnChars_busy hx hd hs hb hi]
    have := State.columnChar_found
      (s := { s with now := heardBy .column s.now init, columnRx := .assembling cs last }) hn
      (State.attends_of hx hd hs (Or.inl rfl)) ht
    simpa [heardBy, State.columnChars] using this

/-- A frame that is complete with the last character heard: the receiver was assembling it until then. -/
theorem Receiver.hear_whole {port : Port} {chars : List LineChar} {cs whole : List Byte} {last : Time}
    {q : Receiver} (h : (Receiver.assembling cs last).hear port chars = (q, [.complete whole]))
    (hl : whole.length = cs.length + chars.length) :
    ∃ pre ch mid at_, chars = pre ++ [ch]
      ∧ (Receiver.assembling cs last).hear port pre = (.assembling mid at_, [])
      ∧ ch.start ≤ at_ + gapLimit port
      ∧ (Receiver.assembling mid at_).take port ch = (.hunting, some (.complete whole)) := by
  induction chars generalizing cs last with
  | nil => cases h
  | cons ch chs ih =>
    rw [Receiver.hear_cons] at h
    obtain ⟨h1, h2⟩ := Prod.mk.inj h
    have hg : (Receiver.assembling cs last).lapsed port ch.start = false := by
      cases hc : (Receiver.assembling cs last).lapsed port ch.start with
      | false => rfl
      | true =>
        rw [hc] at h2
        exact absurd (List.cons.inj h2).1 (by simp)
    simp only [hg, Bool.false_eq_true, if_false, List.nil_append] at h1 h2
    have hgap : ch.start ≤ last + gapLimit port := by simpa [Receiver.lapsed, Receiver.gapEnd] using hg
    revert h1 h2
    generalize hv : (Receiver.assembling cs last).take port ch = v
    intro h1 h2
    unfold Receiver.take at hv
    cases hb : ch.byte with
    | none => simp [hb] at hv; subst hv; simp at h2
    | some b =>
      have more : v = (.assembling (cs ++ [b]) (stopBit port ch), none) →
          ∃ pre c1 mid at_, ch :: chs = pre ++ [c1]
            ∧ (Receiver.assembling cs last).hear port pre = (.assembling mid at_, [])
            ∧ c1.start ≤ at_ + gapLimit port
            ∧ (Receiver.assembling mid at_).take port c1 = (.hunting, some (.complete whole)) := by
        intro hm
        subst hm
        obtain ⟨pre, c1, mid, at_, e1, e2, e3, e4⟩ :=
          ih (cs := cs ++ [b]) (last := stopBit port ch) (Prod.ext h1 (by simpa using h2))
            (by simp at hl ⊢; omega)
        refine ⟨ch :: pre, c1, mid, at_, by rw [e1]; rfl, ?_, e3, e4⟩
        rw [Receiver.hear_cons]
        have htk : (Receiver.assembling cs last).take port ch =
            (.assembling (cs ++ [b]) (stopBit port ch), none) := by
          unfold Receiver.take
          exact hv
        simp only [hg, Bool.false_eq_true, if_false, htk, e2]
        rfl
      simp only [hb] at hv
      split at hv
      · exact more hv.symm
      · split at hv
        · subst hv
          simp at h2
        · split at hv
          · subst hv
            simp only [Option.toList_some, List.singleton_append, List.cons.injEq, RxEvent.complete.injEq] at h2
            obtain ⟨h2, _⟩ := h2
            have hnil : chs = [] := by
              subst h2
              simp at hl
              exact hl
            subst hnil
            refine ⟨[], ch, cs, last, rfl, rfl, hgap, ?_⟩
            unfold Receiver.take
            simp only [hb]
            split
            · contradiction
            · rw [h2]
          · exact more hv.symm

/-- The characters that carry some bytes are as many. -/
theorem Carries.length {chars : List LineChar} {bytes : List Byte} (h : Carries chars bytes) :
    bytes.length = chars.length := by
  have := congrArg List.length h
  simpa using this.symm

/-- The rest of a frame being assembled, complete with its last character, is acted on when it is heard. -/
theorem State.columnChars_rest {s : State} {x : Exchange} {c : Col} {chars : List LineChar}
    {begun bytes : List Byte} {last : Time} (hx : s.exchange = some x) (hd : x.dest = .column c)
    (hs : x.stage.listens = true) (hr : s.columnRx = .assembling begun last) (hc : Carries chars bytes)
    (h : s.columnRx.hear .column chars = (.hunting, [.complete (begun ++ bytes)])) :
    s.columnChars chars =
      State.columnFound { s with now := heardBy .column s.now chars, columnRx := .hunting }
        (.complete (begun ++ bytes)) := by
  rw [hr] at h
  obtain ⟨pre, ch, mid, at_, rfl, e2, e3, e4⟩ := Receiver.hear_whole h (by simp [hc.length])
  rw [State.columnChars_append,
    State.columnChars_busy hx hd hs (by rw [hr]; rfl) (by rw [hr]; exact e2)]
  have hg : (Receiver.assembling mid at_).lapsed .column ch.start = false := by
    simpa [Receiver.lapsed, Receiver.gapEnd] using e3
  have := State.columnChar_found
    (s := { s with now := heardBy .column s.now pre, columnRx := .assembling mid at_ }) hg
    (State.attends_of hx hd hs (Or.inl rfl)) e4
  simpa [heardBy, State.columnChars] using this

/-- A frame that begins in the reply window, complete with its last character, is acted on when it is heard. -/
theorem State.columnChars_whole {s : State} {x : Exchange} {c : Col} {chars : List LineChar}
    {whole : List Byte} (hs : s.Awaits x c) (ho : x.opensWith chars) (hc : Carries chars whole)
    (h : Receiver.hunting.hear .column chars = (.hunting, [.complete whole])) :
    s.columnChars chars =
      State.columnFound { s with now := heardBy .column s.now chars } (.complete whole) := by
  have ⟨_, hx, hd, hst, hr⟩ := hs
  have ⟨ch, rest, hch, hm, hlo, hhi⟩ := ho
  subst hch
  have hl : x.stage.listens = true := by rw [hst]; rfl
  have hw : x.inWindow ch.start = true := by
    simp only [Exchange.inWindow, Bool.and_eq_true, decide_eq_true_eq]
    exact ⟨hlo, hhi⟩
  have htk : Receiver.hunting.take .column ch = (.assembling [startMark] (stopBit .column ch), none) := by
    simp [Receiver.take, hm]
  have hq := State.columnChar_quiet (s := s) (by rw [hr]; rfl) (State.attends_of hx hd hl (Or.inr hw))
    (by rw [hr]; exact htk)
  obtain ⟨bytes, rfl⟩ : ∃ bytes, whole = startMark :: bytes := by
    cases whole with
    | nil => exact absurd hc (by simp [Carries])
    | cons b bs =>
      have := (List.cons.inj hc).1
      rw [hm] at this
      exact ⟨bs, by rw [Option.some.inj this]⟩
  have hrest : Carries rest bytes := (List.cons.inj hc).2
  show State.columnChars (s.columnChar ch) rest = _
  rw [hq, State.columnChars_rest
    (s := { s with now := max s.now (stopBit .column ch), columnRx := .assembling [startMark] (stopBit .column ch) })
    hx hd hl rfl hrest]
  · simp only [List.singleton_append, ← hr]
    rfl
  · rw [Receiver.hear_cons, Receiver.lapsed_hunting] at h
    simpa [htk, Prod.ext_iff] using h

end Sys2Proof.Machine
end

