-- ==== Sys2Proof/WellFormed.lean ====
section
/-! DEFINITION. Which commands are spelled as their row describes them. exec is total on the others too. -/

namespace Sys2Proof

open Machine

/-- What a hunting receiver finds in the characters. -/
def foundIn (port : Port) (chars : List LineChar) : List RxEvent := (Receiver.hunting.hear port chars).2

/-- The bytes of characters that are not in error. -/
def bytesOf (chars : List LineChar) : List Byte := chars.filterMap LineChar.byte

/-- The characters are one complete frame from its start mark to its CRC (07 Table 7-1). -/
def oneFrame (port : Port) (chars : List LineChar) : Bool :=
  foundIn port chars == [.complete (bytesOf chars)] && chars.length == (bytesOf chars).length

/-- The characters begin with a start mark and end with a length above 48 (07 R132). -/
def oneBadLength (port : Port) (chars : List LineChar) : Bool :=
  (bytesOf chars).head? == some startMark && chars.length == 4 && (bytesOf chars).length == 4
    && foundIn port chars == [.discarded]

/-- A frame begun and neither complete nor discarded (07 R132). -/
def begunFrame (port : Port) (chars : List LineChar) : Bool :=
  (bytesOf chars).head? == some startMark && chars.length == (bytesOf chars).length
    && (foundIn port chars).isEmpty

/-- A frame begun, and a character in error (07 R133). -/
def endsInError (port : Port) (chars : List LineChar) : Bool :=
  begunFrame port chars.dropLast && foundIn port chars == [.discarded]
    && chars.getLast?.any fun ch => ch.byte == none

/-- The characters stand in the order in which they begin. -/
def inOrder : List LineChar → Bool
  | a :: b :: rest => decide (a.start ≤ b.start) && inOrder (b :: rest)
  | [_] => true
  | [] => true

/-- Well-formed commands. -/
def WellFormed : Instr → Bool
  | .characterError port chars => endsInError port chars
  | .characterGapTimeout port chars => begunFrame port chars
  | .serverFrameReceived chars => oneFrame .server chars
  | .columnReply chars => oneFrame .column chars
  | .columnFrameCorrupt chars => oneFrame .column chars
  | .badLength port chars => oneBadLength port chars
  | .pollEnd chars => inOrder chars
  | .powerOnReset | .resPut | .resDrop | .resShift | .trainShift | .resRead | .clockSet => true
  | .lockerRead | .faultClear | .classSet | .columnSet | .purgeAbort | .rollCall => true
  | .columnRead | .filterSet | .modeSet | .statsRead | .restart | .unknownKind => true
  | .passThrough | .restartTakesEffect | .transmitEnd | .courtTimeAdvance => true
  | .windowClose _ | .holdDeadline _ | .lockoutEnd _ | .settleEnd _ | .purgeStall _ => true
  | .restEnd _ | .trainShiftVisit | .heatPeriodExpiry _ | .doorHeld _ => true
  | .pollTimerExpiry | .portGrant | .retry | .tryTimeout | .broadcastSent => true
  | .resetAsserted => true

end Sys2Proof
end

