-- ==== Sys2Proof/Tests/Slice0.lean ====
section
/-! SUPPORT. Tests: ill-formed commands are refused, worked examples of the manual run as printed there, and
the hypotheses of every statement are met by a concrete state. -/

namespace Sys2Proof.Tests

open Sys2Proof Sys2Proof.Machine Sys2Proof.Config

set_option Elab.async false

/-! ## Ill-formed commands -/

/-- Characters that carry these bytes, `step` apart, the first at `t`. -/
def stamp (step t : Time) : List Byte → List LineChar
  | [] => []
  | b :: bs => ⟨t, some b⟩ :: stamp step (t + step) bs

/-- A frame from the server as it is heard from internal time `t` on. -/
def serverLine (t : Time) (dest : Station) (kind : Byte) (body : List Byte) : List LineChar :=
  stamp 43 t (Frame.mk dest 13#4 kind body).chars

theorem test_wellFormed_characterError :
    WellFormed (.characterError .server (stamp 43 0 [0xC3#8, 0x0D#8])) = false
      ∧ WellFormed (.characterError .server [⟨0, none⟩]) = false
      ∧ WellFormed (.characterError .server (stamp 43 0 [0xC3#8, 0x0D#8] ++ [⟨86, none⟩])) = true := by decide

theorem test_wellFormed_characterGapTimeout :
    WellFormed (.characterGapTimeout .column []) = false
      ∧ WellFormed (.characterGapTimeout .column [⟨0, some 0xC3#8⟩, ⟨1087, some 0x03#8⟩]) = false
      ∧ WellFormed (.characterGapTimeout .column [⟨0, some 0xC3#8⟩, ⟨1086, some 0x03#8⟩]) = true := by decide

theorem test_wellFormed_serverFrameReceived :
    WellFormed (.serverFrameReceived (stamp 43 0 [0xC3#8, 0x0D#8, 0x4F#8, 0x00#8, 0x00#8])) = false
      ∧ WellFormed (.serverFrameReceived (stamp 2044 0 (Frame.mk 0#4 13#4 0x4F#8 [0#8]).chars)) = false
      ∧ WellFormed (.serverFrameReceived (serverLine 0 0#4 0x4F#8 [0#8])) = true := by decide +kernel

theorem test_wellFormed_columnReply :
    WellFormed (.columnReply []) = false
      ∧ WellFormed (.columnReply (stamp 86 0 (Frame.mk 0#4 3#4 0x82#8 [0x01#8]).chars)) = true := by decide +kernel

theorem test_wellFormed_columnFrameCorrupt :
    WellFormed (.columnFrameCorrupt (stamp 86 0 [0xC3#8, 0x03#8, 0x82#8, 0x31#8])) = false
      ∧ WellFormed (.columnFrameCorrupt (stamp 86 0 [0xC3#8, 0x03#8, 0x82#8, 0x00#8, 0x00#8, 0x00#8])) = true := by
  decide

theorem test_wellFormed_badLength :
    WellFormed (.badLength .server (stamp 43 0 [0xC3#8, 0x0D#8, 0x40#8, 0x30#8])) = false
      ∧ WellFormed (.badLength .server (stamp 43 0 [0xC3#8, 0x0D#8, 0x40#8, 0x31#8])) = true := by decide

theorem test_wellFormed_pollEnd :
    WellFormed (.pollEnd [⟨1600, some 0x80#8⟩, ⟨600, some 0x80#8⟩]) = false
      ∧ WellFormed (.pollEnd [⟨600, some 0x80#8⟩, ⟨1600, none⟩]) = true := by decide

/-! ## A wall with lockers in every state -/

/-- An entry outside FREE of the example wall. -/
def booking (tag code : Nat) (cls : ClassId) (opens closes : Nat) (train : Option Nat) (stage : Stage) :
    Reservation :=
  ⟨tag, code, cls, opens, closes, train, none, stage⟩

/-- Slot 0: BOOKED on train 417 (01 Table 1-7). -/
def slot0 : Reservation := booking 5001 100001 1 65400 66600 (some 417) .booked
/-- Slot 1: READY in locker 1.2 (01 Table 1-7). -/
def slot1 : Reservation := booking 5002 100002 1 65400 66600 (some 417) (.ready 1 63900)
/-- Slot 2: RELEASING in locker 2.1 (01 Table 1-7). -/
def slot2 : Reservation := booking 5003 100003 1 64200 65400 (some 417) (.releasing 8 63300 none)
/-- Slot 3: READY in locker 2.2 (01 Table 1-7). -/
def slot3 : Reservation := booking 5004 100004 1 64500 66000 (some 502) (.ready 9 64500)
/-- Slot 4: OPEN in locker 3.4 (01 Table 1-7). -/
def slot4 : Reservation := booking 5005 100005 1 64200 65400 (some 417) (.opened 19 63600 none)
/-- Slot 5: LOADING in locker 1.3. -/
def slot5 : Reservation := booking 5006 100006 0 65000 66000 none (.loading 2)

/-- The Reservation Table of the example wall. -/
def wallEntries : Bank (Option Reservation) 256 :=
  ((((((Bank.fill 256 none).set 0 (some slot0)).set 1 (some slot1)).set 2 (some slot2)).set 3
    (some slot3)).set 4 (some slot4)).set 5 (some slot5)

/-- A locker of rating 2, occupied as given. -/
def box (state : LockerState) (occupied : Occupied) : Locker := ⟨state, 2, occupied, none, 0, 0⟩

/-- No door timing but the moment the door opened. -/
def openSince (t : Time) : Door := ⟨some t, false, none⟩

/-- The lockers of the example wall. -/
def wallLockers : Bank Locker 64 :=
  ((((((((((((Bank.fill 64 Locker.reset).set 1 (box (.holding 1 ⟨67500, 0⟩) .yes)).set 8
    (box (.releasing 2 ⟨66900, 0⟩) .yes)).set 9 (box (.holding 3 ⟨68100, 0⟩) .yes)).set 19
    (box (.opened 4 ⟨67200, 0⟩ (openSince 5000)) .yes)).set 2
    (box (.loading 5 .unlatched (openSince 6000)) .no)).set 3 (box .empty .no)).set 4
    (box .purgeWait .no)).set 5 (box (.purging (some 64200)) .no)).set 6
    (box (.purgeRest (some 64800)) .no)).set 7 (box (.spoiled (some ⟨4999, .window⟩)) .yes)).set 10
    (box (.clearing none .unlatched (openSince 7000)) .yes)).set 11
    (box (.blocked .sensor (some ⟨4998, .fault⟩)) .yes)

/-- A column in use. -/
def activeColumn : Column := { Column.reset with state := .active, walkPending := false }

/-- The columns of the example wall: 1 to 3 ACTIVE, 4 SETTLING and locked out, 5 ABSENT, 6 in SERVICE. -/
def wallColumns : Bank Column 8 :=
  ((((((Bank.fill 8 Column.reset).set 0 activeColumn).set 1 activeColumn).set 2
    { activeColumn with silence := 2, wrong := 4 }).set 3
    { activeColumn with state := .settling (some 64800), wrong := 5, lockout := some 64800 }).set 4
    { activeColumn with state := .absent, heatNext := none }).set 5 { activeColumn with state := .service }

/-- The urgent operation of the wall: the UNLATCH of locker 2.1's release. -/
def urgentOp : Op := { unlatchOp 8 .front .collect (some 2) with tag := 2 }

/-- The routine operation of the wall: a pass-through of column 1. -/
def routineOp : Op := { passOp (.column 0) 0x10#8 .once [] with tag := 3 }

/-- An UNLATCH in entry 2 and a pass-through operation in entry 3. -/
def wallOps : List Op := [urgentOp, routineOp]

/-- The example wall, at court time 64,800 (01 section 1.9), with one command waiting. -/
def wall : State :=
  { State.reset with
    pending := [.windowClose 3], now := 1000000, court := some 64800, courtNext := 1500000
    entries := wallEntries, lockers := wallLockers, columns := wallColumns, ops := wallOps
    mode := .run, ledLow := true, walkEnded := true, clockMark := true }

/-- The wall at another court time. -/
def wallAt (t : Nat) : State := { wall with court := some t }

/-- The wall with a request of station 0 at the head of the inbox. -/
def req (kind : Byte) (body : List Byte) : State := { wall with inbox := [⟨0#4, kind, body⟩] }

/-- The state an outcome goes on with. -/
def after (o : Host.Outcome State Fault Refusal) : State :=
  match o with
  | .next t => t
  | .fault _ => State.reset
  | .refused _ => State.reset

theorem req_head (kind : Byte) (body : List Byte) : (req kind body).HeadIs kind body [] := by
  refine ⟨rfl, ?_, rfl, rfl⟩
  show wallOps.countP _ < 8 - 0
  decide

/-- The live entries of the wall. -/
def wallLive : List (Slot × Reservation) :=
  [(0, slot0), (1, slot1), (2, slot2), (3, slot3), (4, slot4), (5, slot5)]

theorem wall_live {i : Slot} {r : Reservation} (h : wall.entry i = some r) : (i, r) ∈ wallLive := by
  have all : ∀ i, ((wallEntries.get i).all fun r => wallLive.contains (i, r)) = true := by decide +kernel
  have hi := all i
  rw [show wallEntries.get i = some r from h] at hi
  simpa using hi

/-! ## The laws stand on the wall, and a step goes on from it -/

theorem witness_step : ∃ t, step wall = .next t := ⟨_, rfl⟩

theorem witness_UniqueKeys : wall.UniqueKeys := by
  intro i j r q hi hj h
  have all : ∀ x ∈ wallLive, ∀ y ∈ wallLive, x.2.tag = y.2.tag ∨ x.2.code = y.2.code → x.1 = y.1 := by decide
  exact all _ (wall_live hi) _ (wall_live hj) h

/-- The states of a bound pair stand in the same order in Tables 1-2 and 2-2. -/
theorem fits_of_codes {st : LockerState} {l : LockerId} {g : Stage} (hl : g.locker = some l)
    (hc : st.code = g.code + 3) : st.fits l g := by
  cases st <;> cases g <;> simp_all [LockerState.code, Stage.code, Stage.locker, LockerState.fits]

theorem witness_BindingLaw : wall.BindingLaw := by
  have named : ∀ l, ((wallLockers.get l).state.slot.all fun i => (wallEntries.get i).any fun r =>
      r.stage.locker == some l && (wallLockers.get l).state.code == r.stage.code + 3) = true := by
    decide +kernel
  have back : ∀ i, ((wallEntries.get i).all fun r => r.stage.locker.all fun l =>
      (wallLockers.get l).state.slot == some i) = true := by decide +kernel
  refine ⟨fun l i h => ?_, fun i r l h hl => ?_⟩
  · have hn := named l
    rw [show (wallLockers.get l).state.slot = some i from h, Option.all_some, Option.any_eq_true] at hn
    obtain ⟨r, hr, ht⟩ := hn
    rw [Bool.and_eq_true, beq_iff_eq, beq_iff_eq] at ht
    exact ⟨r, hr, fits_of_codes ht.1 ht.2⟩
  · have hb := back i
    rw [show wallEntries.get i = some r from h, Option.all_some, hl, Option.all_some] at hb
    exact beq_iff_eq.mp hb

theorem witness_CloseLimited : wall.CloseLimited := by
  have all : ∀ l, ((wallLockers.get l).state.meal.all fun x => (wallEntries.get x.1).all fun r =>
      decide (r.closes ≤ x.2.deadline)) = true := by decide +kernel
  intro l i m r hm he
  have h := all l
  rw [show (wallLockers.get l).state.meal = some (i, m) from hm, Option.all_some] at h
  dsimp only at h
  rw [show wallEntries.get i = some r from he, Option.all_some] at h
  exact of_decide_eq_true h

theorem witness_DoorLaw : wall.DoorLaw := by
  intro l
  by_cases h : l = 8
  · subst h
    constructor
    · show (wallOps.filter _).length ≤ 1
      decide
    · intro op hop hu side hs
      have hs' : (some Side.front : Option Side) = some side := hs
      simp only [wall, wallOps, List.mem_cons, List.not_mem_nil, or_false] at hop
      rcases hop with rfl | rfl
      · exact hs'
      · cases hu
  · have hn : ∀ op ∈ wall.ops, op.isUnlatch l = false := by
      intro op hop
      simp only [wall, wallOps, List.mem_cons, List.not_mem_nil, or_false] at hop
      rcases hop with rfl | rfl
      · revert h; revert l; decide
      · rfl
    constructor
    · rw [List.filter_eq_nil_iff.mpr (by intro op hop; simp [hn op hop])]
      simp
    · intro op hop hu
      rw [hn op hop] at hu
      cases hu

theorem witness_QueueLaw : wall.QueueLaw := by
  unfold State.QueueLaw
  decide

theorem witness_PortLaw : wall.PortLaw := by
  unfold State.PortLaw
  decide

theorem witness_BudgetLaw : wall.BudgetLaw := by
  unfold State.BudgetLaw
  decide

theorem witness_ModeLaw : wall.ModeLaw := by
  unfold State.ModeLaw
  decide

theorem witness_PassLaw : wall.PassLaw := by
  unfold State.PassLaw
  decide

theorem columns_inRange (c : Col) : (wallColumns.get c).inRange := by
  have all : ∀ c, (wallColumns.get c).silence ≤ 3 ∧ (wallColumns.get c).wrong ≤ 5
      ∧ ((wallColumns.get c).wrong = 5 ↔ (wallColumns.get c).lockout.isSome)
      ∧ 3 ≤ (wallColumns.get c).budget ∧ (wallColumns.get c).budget ≤ 24
      ∧ (wallColumns.get c).pendingBudget = none ∧ ∀ p, (wallColumns.get c).granted.get p ≤ 3 := by
    decide +kernel
  obtain ⟨h1, h2, h3, h4, h5, h6, h7⟩ := all c
  refine ⟨h1, h2, h3, h4, h5, fun b hb => ?_, h7⟩
  rw [h6] at hb
  cases hb

theorem entries_inRange {i : Slot} {r : Reservation} (h : wall.entry i = some r) : r.inRange := by
  have all : ∀ x ∈ wallLive, x.2.tag ≠ 0 ∧ x.2.tag ≤ maxCourt ∧ x.2.code ≠ 0 ∧ x.2.code ≤ 999999
      ∧ x.2.opens ≤ maxCourt ∧ x.2.closes ≤ maxCourt ∧ (x.2.train.all fun n => decide (1 ≤ n ∧ n ≤ 65535)) = true
      ∧ x.2.holdOverride = none ∧ x.2.stage.pending = none := by decide
  obtain ⟨h1, h2, h3, h4, h5, h6, h7, h8, h9⟩ := all _ (wall_live h)
  refine ⟨h1, h2, h3, h4, h5, h6, fun n hn => ?_, fun n hn => ?_, fun w hw => ?_⟩
  · dsimp only at h7
    rw [hn, Option.all_some] at h7
    exact of_decide_eq_true h7
  · rw [h8] at hn
    cases hn
  · rw [h9] at hw
    cases hw

theorem witness_RangeLaw : wall.RangeLaw := by
  refine ⟨columns_inRange, ?_, fun _ _ h => entries_inRange h, by decide, fun t h => ?_, by decide, by decide⟩
  · have all : ∀ l, (wallLockers.get l).rating ≤ 3 ∧ (wallLockers.get l).demand ≤ 3
        ∧ (wallLockers.get l).refusals ≤ 6 := by decide +kernel
    exact all
  · cases h
    decide

/-! ## Worked examples of the manual -/

/-- The code 417209 that the FETCH of 07 Table 7-13 returns. -/
theorem test_fetchEvents :
    eventOf [0x05#8, 2#8, 0#8, 0#8] = some (.doorClosed 2 .front false)
      ∧ eventOf [0x01#8, 0x41#8, 0x72#8, 0x09#8] = some (.code (some 417209)) := by decide +kernel

/-- The COLLECTED notice of 07 section 7.8. -/
theorem test_collectedNotice :
    (Notice.collected 6120 26 true).body = [0x00#8, 0x00#8, 0x17#8, 0xE8#8, 0x1B#8, 0x01#8]
      ∧ (Notice.collected 6120 26 true).kind = 0x62#8
      ∧ (Notice.collected 6120 26 true).frame.chars.length = 12 := by decide +kernel

/-- The wall with the TRAIN-SHIFT walk of 01 Table 1-8 at a slot. -/
def shifting (cursor : Slot) (shifted : Nat) : State :=
  { wall with shift := some ⟨417, 1200, cursor, shifted, 0, 1000000⟩ }

/-- Step 1 of 01 Table 1-8. -/
theorem test_shiftStep1 :
    let t := after (exec .trainShiftVisit (shifting 0 0))
    t.entry 0 = some (booking 5001 100001 1 66600 67800 (some 417) .booked)
      ∧ t.shift = some ⟨417, 1200, 1, 1, 0, 1001000⟩ := by decide +kernel

/-- Step 2 of 01 Table 1-8: the close is limited to the hold deadline. -/
theorem test_shiftStep2 :
    let t := after (exec .trainShiftVisit (shifting 1 1))
    t.entry 1 = some (booking 5002 100002 1 66600 67500 (some 417) (.ready 1 63900))
      ∧ t.shift = some ⟨417, 1200, 2, 2, 0, 1001000⟩ := by decide +kernel

/-- A HOLDING or LOADING locker of column 2 in 05 Table 5-6. -/
def warm (state : LockerState) (temp : Int) (refusals : Nat) : Locker :=
  ⟨state, 3, .yes, some temp, 0, refusals⟩

/-- Column 2 before the heat period of 05 Table 5-6. -/
def heatWall : State :=
  { wall with
    entries := ((((Bank.fill 256 none).set 0
        (some (booking 1 1 0 64000 70000 none (.ready 9 64000)))).set 1
        (some (booking 2 2 1 64000 70000 none (.ready 10 64000)))).set 2
        (some (booking 3 3 1 64000 70000 none (.loading 11)))).set 3
        (some (booking 4 4 2 64000 70000 none (.ready 12 64000))) |>.set 4
        (some (booking 5 5 0 64000 70000 none (.ready 14 64000)))
    lockers := (((((((Bank.fill 64 Locker.reset).set 8 (warm (.purging (some 64800)) 980 0)).set 9
        (warm (.holding 0 ⟨71000, 20⟩) 700 6)).set 10 (warm (.holding 1 ⟨71000, 0⟩) 810 0)).set 11
        (warm (.loading 2 .unlatched Door.none) 520 2)).set 12
        (warm (.holding 3 ⟨71000, 890⟩) 610 0)).set 13 (warm .purgeWait 400 0)).set 14
        (warm (.holding 4 ⟨71000, 0⟩) 660 4) |>.set 15 (warm .empty 450 0)
    columns := wallColumns.set 1 { activeColumn with pendingBudget := some 6, pointer := 2 }
    ops := [] }

/-- The grants, the pointer, the refusals and the HEAT-SET of 05 Table 5-7. -/
theorem test_heatPeriod :
    let t := after (exec (.heatPeriodExpiry 1) heatWall)
    (t.column 1).granted.cells = [3, 2, 0, 0, 1, 0, 0, 0] ∧ (t.column 1).pointer = 4
      ∧ (t.column 1).budget = 6
      ∧ (allPos.map fun p => (t.locker (lockerAt 1 p)).refusals) = [0, 0, 0, 3, 0, 0, 5, 0]
      ∧ t.ops.map Op.body = [[3#8, 2#8, 0#8, 0#8, 1#8, 0#8, 0#8, 0#8]] := by decide +kernel

/-- The readings of 05 Table 5-8: locker 2.5 reaches its allowance, locker 2.8 is BLOCKED SENSOR. -/
theorem test_heatReadings :
    let t := heatWall.heatOutcome 1 (.done false 0x85#8
      ([1#8] ++ [1#8] ++ beBytes 2 1040 ++ [1#8] ++ beBytes 2 695 ++ [1#8] ++ beBytes 2 805 ++ [1#8]
        ++ beBytes 2 550 ++ [1#8] ++ beBytes 2 590 ++ [1#8] ++ beBytes 2 400 ++ [1#8] ++ beBytes 2 650
        ++ [0#8, 0#8, 0#8]))
    (t.locker 12).state = .holding 3 ⟨71000, 900⟩ ∧ (t.locker 9).state = .holding 0 ⟨71000, 20⟩
      ∧ (t.locker 15).state = .blocked .sensor none
      ∧ t.notices = [.lockerFault 15 .sensor] := by decide +kernel

/-! ## The hypotheses of the statements are met: the block's interface -/

theorem witness_StepRunsTheFrontCommand : wall.pending = .windowClose 3 :: [] := rfl

/-- The wall while RESET_N holds the part. -/
def heldWall : State := { wall with held := true, pending := [] }

theorem witness_IdleAndHeldStepsDoNothingElse :
    State.reset.pending = [] ∧ State.reset.held = false ∧ heldWall.pending = [] ∧ heldWall.held = true
      ∧ Instr.retry ≠ .powerOnReset ∧ Instr.retry ≠ .resetAsserted := by
  refine ⟨rfl, rfl, rfl, rfl, by decide, by decide⟩

theorem test_powerOnReset : (after (exec .powerOnReset wall)).pending = wall.pending
    ∧ (after (exec .powerOnReset wall)).court = none := ⟨rfl, rfl⟩

theorem test_resetAsserted : (after (exec .resetAsserted wall)).held = true
    ∧ (after (exec .resetAsserted wall)).ops = [] := ⟨rfl, rfl⟩

/-! ## Frames -/

/-- The longest body a frame has. -/
def longBody : List Byte := List.replicate 48 0xFF#8

/-- The longest frame from the server, its characters as far apart as the gap limit lets them be. -/
def longFrame : Frame := ⟨0#4, 13#4, 0x40#8, longBody⟩

theorem witness_FramesAreReadBack :
    longFrame.body.length ≤ 48 ∧ Carries (stamp 2043 0 longFrame.chars) longFrame.chars
      ∧ gapsWithin .server (stamp 2043 0 longFrame.chars) = true
      ∧ gapsWithin .server (stamp 2044 0 longFrame.chars) = false
      ∧ Carries (stamp 1086 0 longFrame.chars) longFrame.chars
      ∧ gapsWithin .column (stamp 1086 0 longFrame.chars) = true := by
  unfold Carries
  decide +kernel

theorem witness_CrcChecksEveryFrame :
    wall.sending = none
      ∧ ({ wall with notices := [.mode .run] } : State).transmit.sending
          = some ⟨(Frame.mk 13#4 0#4 0x6E#8 [1#8]).chars, false⟩
      ∧ longBody.length = (0x30#8 : Byte).toNat ∧ crcGood [0xC3#8, 0x03#8, 0x82#8, 0x00#8, 0x00#8, 0x00#8] = false
      ∧ urgentOp.mode = .untilMet 6 0 ∧ routineOp.mode = .once := by decide +kernel

/-- The wall with a full inbox. -/
def fullInbox : State := { wall with inbox := List.replicate 4 ⟨0#4, 0x4F#8, [0#8]⟩ }

/-- The wall with a full inbox and no reply entry to spare. -/
def noSpare : State := { fullInbox with replies := List.replicate 7 ⟨0xCF#8, 0#4, [], false⟩ }

theorem witness_ServerFramesAreJudged :
    wall.held = false ∧ wall.serverRx = .hunting ∧ fullInbox.serverRx = .hunting
      ∧ (∀ dest ∈ [0#4, 1#4, 8#4, 9#4, 13#4, 15#4],
          Receiver.hunting.hear .server (serverLine 0 dest 0x4F#8 [0#8])
            = (.hunting, [.complete (Frame.mk dest 13#4 0x4F#8 [0#8]).chars])
          ∧ crcGood (Frame.mk dest 13#4 0x4F#8 [0#8]).chars = true
          ∧ (frameOf (Frame.mk dest 13#4 0x4F#8 [0#8]).chars).src = 13#4
          ∧ (frameOf (Frame.mk dest 13#4 0x4F#8 [0#8]).chars).dest = dest)
      ∧ wall.inbox.length < 4 ∧ 4 ≤ fullInbox.inbox.length
      ∧ fullInbox.passOutstanding < 8 - fullInbox.replies.length
      ∧ ¬noSpare.passOutstanding < 8 - noSpare.replies.length := by decide +kernel

theorem test_serverFrameReceived :
    (after (exec (.serverFrameReceived (serverLine 1000000 0#4 0x4F#8 [0#8])) wall)).inbox
        = [⟨0#4, 0x4F#8, [0#8]⟩]
      ∧ (after (exec (.serverFrameReceived (serverLine 1000000 9#4 0x4F#8 [0#8])) wall)).counters.serverDiscarded
          = 1 := by decide +kernel

/-- An exchange with column 1 that has sent its request. -/
def panelExchange (stage : ExStage) (tryNo : Nat) : Exchange :=
  { tag := 3, dest := .column 0, kind := 0x10#8, request := (Frame.mk 1#4 0#4 0x10#8 []).chars
    tryNo := tryNo, requestEnd := 999000, stage := stage, leftReach := false, abandoned := false }

/-- The wall while column 1's reply is awaited. -/
def awaitingWall (tryNo : Nat) : State := { wall with exchange := some (panelExchange .awaiting tryNo) }

theorem awaits (tryNo : Nat) : (awaitingWall tryNo).Awaits (panelExchange .awaiting tryNo) 0 :=
  ⟨rfl, rfl, rfl, rfl, rfl⟩

/-- A start mark, the first character of a broken frame. -/
def begun (t : Time) : List LineChar := [⟨t, some 0xC3#8⟩]

/-- A frame that breaks off with a character in error. -/
def broken (t : Time) : List LineChar := begun t ++ [⟨t + 100, none⟩]

/-- A frame whose length is 49. -/
def tooLong (step t : Time) : List LineChar := stamp step t [0xC3#8, 0x03#8, 0x40#8, 0x31#8]

theorem opens_begun {rest : List LineChar} (stage : ExStage) (tryNo : Nat) {t : Time} (h1 : 999200 ≤ t)
    (h2 : t < 1007000) : (panelExchange stage tryNo).opensWith (begun t ++ rest) :=
  ⟨⟨t, some 0xC3#8⟩, rest, rfl, rfl, h1, h2⟩

theorem witness_PortsDiscardBrokenFrames :
    (awaitingWall 1).Awaits (panelExchange .awaiting 1) 0
      ∧ (∀ t, 999200 ≤ t → t < 1007000 → (panelExchange .awaiting 1).opensWith (broken t)
          ∧ (panelExchange .awaiting 1).opensWith (begun t)
          ∧ (panelExchange .awaiting 1).opensWith (tooLong 86 t))
      ∧ wall.held = false ∧ wall.serverRx = .hunting
      ∧ wall.serverRx.hear .server (broken 1000000) = (.hunting, [.discarded])
      ∧ wall.serverRx.hear .server (tooLong 43 1000000) = (.hunting, [.discarded])
      ∧ wall.serverRx.hear .server (begun 1000000) = (.assembling [0xC3#8] 1000043, [])
      ∧ Receiver.hunting.hear .column (broken 1000000) = (.hunting, [.discarded])
      ∧ heardBy .column 1000000 (broken 1000000) < 999000 + 8000
      ∧ Receiver.hunting.hear .column (begun 1005913) = (.assembling [0xC3#8] 1005999, [])
      ∧ heardBy .column 1000000 (begun 1005913) ≤ 1005999 + 1000 ∧ 1005999 + 1000 < 999000 + 8000
      ∧ Receiver.hunting.hear .column (begun 1005914) = (.assembling [0xC3#8] 1006000, [])
      ∧ 999000 + 8000 ≤ 1006000 + 1000 ∧ (panelExchange .awaiting 2).abandoned = false
      ∧ wall.exchange = none ∧ wall.columnRx = .hunting
      ∧ [ExStage.broadcast, .slots, .retryFrom 1000].map (fun stage => (panelExchange stage 1).stage)
          = [.broadcast, .slots, .retryFrom 1000] := by
  refine ⟨awaits 1, fun t h1 h2 => ⟨opens_begun _ _ h1 h2, opens_begun _ _ h1 h2, opens_begun _ _ h1 h2⟩, ?_⟩
  decide +kernel

/-- Broken off, or found too long, at the very moment the window closes. -/
theorem brokenAtClose (tryNo : Nat) :
    (awaitingWall tryNo).FrameEndsTry (panelExchange .awaiting tryNo) 0 (.characterError .column (broken 1006814))
        1007000
      ∧ (awaitingWall tryNo).FrameEndsTry (panelExchange .awaiting tryNo) 0
          (.badLength .column (tooLong 86 1006656)) 1007000 := by
  have h1 : Receiver.hunting.findsLast .column (broken 1006814) .discarded :=
    ⟨begun 1006814, ⟨1006914, none⟩, [0xC3#8], 1006900, rfl, by decide +kernel⟩
  have h2 : Receiver.hunting.findsLast .column (tooLong 86 1006656) .discarded :=
    ⟨stamp 86 1006656 [0xC3#8, 0x03#8, 0x40#8], ⟨1006914, some 0x31#8⟩, [0xC3#8, 0x03#8, 0x40#8], 1006914, rfl,
      by decide +kernel⟩
  have h3 : 1007000 = heardBy .column 1000000 (broken 1006814)
      ∧ 1007000 = heardBy .column 1000000 (tooLong 86 1006656) := by decide +kernel
  exact ⟨⟨_, .inl ⟨awaits tryNo, opens_begun _ _ (by decide) (by decide), Nat.le_refl 1007000⟩,
      .inl ⟨.inl rfl, h1, h3.1⟩⟩,
    ⟨_, .inl ⟨awaits tryNo, opens_begun _ _ (by decide) (by decide), Nat.le_refl 1007000⟩,
      .inl ⟨.inr rfl, h2, h3.2⟩⟩⟩

theorem test_characterError :
    (after (exec (.characterError .server (broken 1000000)) wall)).counters.serverDiscarded = 1
      ∧ (after (exec (.characterError .column (broken 1000000)) (awaitingWall 1))).counters.columnDiscarded = 1
      ∧ (after (exec (.characterError .column (broken 999100)) (awaitingWall 1))).counters.columnDiscarded
          = 0 := by decide +kernel

/-- The gap limit runs out 1 ms after the last stop bit: inside the window the try goes on, at its close it ends. -/
theorem test_characterGapTimeout :
    (after (exec (.characterGapTimeout .column (begun 1005913)) (awaitingWall 1))).exchange
        = some (panelExchange .awaiting 1)
      ∧ (after (exec (.characterGapTimeout .column (begun 1005914)) (awaitingWall 1))).exchange
          = some (panelExchange (.retryFrom 1007000) 1) := by decide +kernel

/-- The third try so ended ends the exchange SILENT at that moment. -/
theorem test_brokenAtClose :
    (after (exec (.characterError .column (broken 1006814)) (awaitingWall 2))).exchange
        = some (panelExchange (.retryFrom 1007000) 2)
      ∧ (after (exec (.characterError .column (broken 1006814)) (awaitingWall 3))).released = some 1007000
      ∧ (after (exec (.badLength .column (tooLong 86 1006656)) (awaitingWall 3))).counters.silent = 1 := by
  decide +kernel

theorem test_badLength :
    (after (exec (.badLength .server (tooLong 43 1000000)) wall)).counters.serverDiscarded = 1
      ∧ (after (exec (.badLength .column (tooLong 86 1000000)) (awaitingWall 1))).counters.columnDiscarded = 1 := by
  decide +kernel

/-! ## The server port -/

/-- The wall with as many notices as given, its transmitter busy. -/
def noticesWaiting (n : Nat) : State :=
  { wall with notices := List.replicate n (.mode .run), sending := some ⟨[], false⟩ }

theorem witness_TransmitterAndNoticeQueue :
    (noticesWaiting 64).sending.isSome ∧ wall.sending = none ∧ wall.replies = [] ∧ wall.notices = []
      ∧ noSpare.sending = none ∧ noSpare.replies = ⟨0xCF#8, 0#4, [], false⟩ :: List.replicate 6 ⟨0xCF#8, 0#4, [], false⟩
      ∧ ({ wall with notices := [.mode .run], gap := 1 } : State).notices = .mode .run :: []
      ∧ (noticesWaiting 63).notices.length < 64 ∧ 64 ≤ (noticesWaiting 64).notices.length
      ∧ (noticesWaiting 1).sending = some ⟨[], false⟩ ∧ (noticesWaiting 1).held = false := by
  and_intros <;> first | rfl | decide

theorem witness_RequestsWaitAndUnknownKindsAreAnswered :
    noSpare.held = false ∧ 8 - noSpare.replies.length ≤ noSpare.passOutstanding
      ∧ ({ wall with restartPending := true } : State).restartPending = true
      ∧ (req 0x51#8 []).HeadIs 0x51#8 [] [] ∧ ¬(0x40 ≤ (0x51#8 : Byte).toNat ∧ (0x51#8 : Byte).toNat ≤ 0x50)
      ∧ (req 0x3F#8 []).HeadIs 0x3F#8 [] [] ∧ ¬(0x40 ≤ (0x3F#8 : Byte).toNat ∧ (0x3F#8 : Byte).toNat ≤ 0x50) := by
  refine ⟨rfl, by decide, rfl, req_head _ _, by decide, req_head _ _, by decide⟩

theorem test_unknownKind :
    (after (exec .unknownKind (req 0x51#8 []))).sending = some ⟨(Frame.mk 13#4 0#4 0xD1#8 [0x4B#8]).chars, false⟩ := by
  decide +kernel

theorem witness_FilterSetWritesOneEntry :
    (req 0x4D#8 []).HeadIs 0x4D#8 [] [] ∧ (req 0x4D#8 [0x10#8, 2#8, 1#8]).HeadIs 0x4D#8 [0x10#8, 2#8, 1#8] []
      ∧ filterIndex 0x09#8 = some 0 ∧ filterIndex 0x10#8 = some 1 ∧ filterIndex 0x3F#8 = some 48
      ∧ filterIndex 0x0F#8 = none ∧ filterIndex 0x40#8 = none
      ∧ filterActionOf 0 = some .refuse ∧ filterActionOf 2 = some .passInService ∧ filterActionOf 3 = none := by
  refine ⟨req_head _ _, req_head _ _, ?_, ?_, ?_, ?_, ?_, ?_, ?_, ?_⟩ <;> decide

theorem test_filterSet :
    (after (exec .filterSet (req 0x4D#8 [0x3F#8, 2#8, 1#8]))).filter.get 48 = ⟨.passInService, true⟩ := by
  decide +kernel

/-- The wall in another operating mode with a MODE-SET at the head of the inbox. -/
def modeReq (mode : OpMode) (body : List Byte) : State := { req 0x4E#8 body with mode := mode }

theorem modeReq_head (mode : OpMode) (body : List Byte) : (modeReq mode body).HeadIs 0x4E#8 body [] :=
  req_head 0x4E#8 body

theorem witness_ModeSetMovesBetweenRunAndDrain :
    (modeReq .run []).HeadIs 0x4E#8 [] [] ∧ (modeReq .run [0#8]).HeadIs 0x4E#8 [0#8] []
      ∧ (modeReq .run [3#8]).HeadIs 0x4E#8 [3#8] [] ∧ (modeReq .starting [1#8]).mode = .starting
      ∧ (modeReq .starting [1#8]).HeadIs 0x4E#8 [1#8] [] ∧ (modeReq .drain [1#8]).HeadIs 0x4E#8 [1#8] []
      ∧ (modeReq .drain [1#8]).mode = .drain ∧ (modeReq .run [2#8]).mode = .run
      ∧ (∀ body, ({ req 0x40#8 body with mode := .drain } : State).HeadIs 0x40#8 body [])
      ∧ (List.replicate 20 (1#8 : Byte)).length = 20 :=
  ⟨modeReq_head _ _, modeReq_head _ _, modeReq_head _ _, rfl, modeReq_head _ _, modeReq_head _ _, rfl, rfl,
    fun body => req_head 0x40#8 body, rfl⟩

theorem test_modeSet :
    (after (exec .modeSet (modeReq .run [2#8]))).ledLow = false
      ∧ (after (exec .modeSet (modeReq .run [2#8]))).notices = [.mode .drain] := by decide +kernel

theorem witness_StatsReadReportsAndClears :
    (req 0x4F#8 []).HeadIs 0x4F#8 [] [] ∧ (req 0x4F#8 [2#8]).HeadIs 0x4F#8 [2#8] []
      ∧ 1 < (2#8 : Byte).toNat ∧ (req 0x4F#8 [0#8]).HeadIs 0x4F#8 [0#8] []
      ∧ (req 0x4F#8 [1#8]).HeadIs 0x4F#8 [1#8] [] :=
  ⟨req_head _ _, req_head _ _, by decide, req_head _ _, req_head _ _⟩

theorem test_statsRead :
    (after (exec .statsRead { req 0x4F#8 [1#8] with counters := ⟨1, 2, 3, 4, 5, 6, 7, 8⟩ })).counters = .zero := by
  decide +kernel

theorem witness_RestartIsAnsweredAndPending :
    (req 0x50#8 [0#8]).HeadIs 0x50#8 [0#8] [] ∧ (req 0x50#8 []).HeadIs 0x50#8 [] [] :=
  ⟨req_head _ _, req_head _ _⟩

/-- The wall while the RESTART reply is being sent, with the exchange given in flight. -/
def restarting (x : Option Exchange) : State :=
  { wall with sending := some ⟨[], true⟩, restartPending := true, exchange := x }

/-- An exchange that a RESTART has abandoned. -/
def abandoned (dest : Dest) (stage : ExStage) : Exchange :=
  { panelExchange stage 1 with dest := dest, abandoned := true }

/-- The wall with an abandoned exchange on the column line. -/
def abandonedWall (dest : Dest) (stage : ExStage) : State := { wall with exchange := some (abandoned dest stage) }

/-- A frame from another column than the one awaited. -/
def strayFrame : List Byte := (Frame.mk 0#4 2#4 0x90#8 [1#8]).chars

theorem carries_stamp (step t : Time) (bs : List Byte) : Carries (stamp step t bs) bs := by
  unfold Carries
  induction bs generalizing t with
  | nil => rfl
  | cons b bs ih => simp [stamp, ih]

theorem witness_RestartTakesEffect :
    (∀ x, (restarting x).held = false ∧ (restarting x).sending = some ⟨[], true⟩ ∧ (restarting x).exchange = x)
      ∧ (panelExchange (.retryFrom 1007000) 1).stage = .retryFrom 1007000
      ∧ (∀ w, (panelExchange .awaiting 1).stage ≠ .retryFrom w) ∧ (panelExchange .awaiting 1).dest = .column 0
      ∧ (∀ dest stage, (abandonedWall dest stage).held = false
          ∧ (abandonedWall dest stage).exchange = some (abandoned dest stage)
          ∧ (abandonedWall dest stage).columnRx = .hunting)
      ∧ (abandonedWall (.column 0) .awaiting).Awaits (abandoned (.column 0) .awaiting) 0
      ∧ (∀ bs, (abandoned (.column 0) .awaiting).opensWith (stamp 86 1000000 (0xC3#8 :: bs))
          ∧ Carries (stamp 86 1000000 (0xC3#8 :: bs)) (0xC3#8 :: bs))
      ∧ minReply 0x10#8 ⟨true, false, false⟩ ≤ [(1#8 : Byte)].length ∧ bodyFlags [1#8] = some ⟨true, false, false⟩
      ∧ gapsWithin .column (stamp 86 1000000 ((abandoned (.column 0) .awaiting).replyFrame 0 [1#8]).chars) = true
      ∧ Receiver.hunting.hear .column (stamp 86 1000000 strayFrame) = (.hunting, [.complete strayFrame])
      ∧ (abandoned (.column 0) .awaiting).accepts 0 strayFrame = none
      ∧ heardBy .column 1000000 (stamp 86 1000000 strayFrame) < 999000 + 8000
      ∧ 999000 + 8000 ≤ heardBy .column 1000000 (stamp 86 1006999 strayFrame) := by
  refine ⟨fun _ => ⟨rfl, rfl, rfl⟩, rfl, fun _ => ExStage.noConfusion, rfl, fun _ _ => ⟨rfl, rfl, rfl⟩,
    ⟨rfl, rfl, rfl, rfl, rfl⟩,
    fun bs => ⟨⟨_, _, rfl, rfl, by decide, by decide⟩, carries_stamp 86 1000000 (0xC3#8 :: bs)⟩, ?_⟩
  decide +kernel

theorem test_restartTakesEffect :
    (after (exec .transmitEnd (restarting none))).mode = .starting
      ∧ ((after (exec .restartTakesEffect (restarting none))).column 3).lockout = none
      ∧ ((after (exec .transmitEnd (restarting (some (panelExchange (.retryFrom 1007000) 1))))).column 0).quiet
          = some 1017000 := by decide +kernel

/-- A pass-through frame at the head of the inbox; its kind has the Filter Table entry given. -/
def passReq (dest : Station) (kind : Byte) (body : List Byte) (k : Fin 49) (e : FilterEntry) : State :=
  { wall with inbox := [⟨dest, kind, body⟩], filter := filterTable.set k e }

theorem witness_PassThroughIsAdmittedByTheTable :
    let s := passReq 1#4 0x10#8 [1#8, 5#8] 1 ⟨.pass, true⟩
    s.held = false ∧ s.passOutstanding < 8 - s.replies.length ∧ s.restartPending = false
      ∧ s.inbox = ⟨1#4, 0x10#8, [1#8, 5#8]⟩ :: [] ∧ passDest 1#4 = some (.column 0)
      ∧ passDest 8#4 = some (.column 7) ∧ passDest 15#4 = some .all
      ∧ filterIndex 0x08#8 = none ∧ filterIndex 0x10#8 = some 1 ∧ (s.filter.get 1).action ≠ .refuse
      ∧ (s.filter.get 2).action = .refuse ∧ (s.column 4).state = .absent ∧ (s.column 5).state = .service
      ∧ ¬2 ≤ s.passOutstanding ∧ s.freeEntries ≠ 0
      ∧ 2 ≤ ({ s with ops := wallOps ++ wallOps } : State).passOutstanding
      ∧ ({ s with ops := List.replicate 31 (initialWalk 0) } : State).freeEntries = 0
      ∧ countedItems [0#8, 5#8] = none ∧ countedItems [9#8] = none ∧ countedItems [1#8, 5#8] = some [5#8] := by
  decide +kernel

theorem test_passThrough :
    ((after (exec .passThrough (passReq 1#4 0x10#8 [1#8, 5#8] 1 ⟨.pass, true⟩))).ops.map Op.mode)
      = [.untilMet 6 0, .once, .counted 0] := by decide +kernel

/-! ## Reservations and court time -/

/-- The body of a RES-PUT (07 Table 7-11). -/
def putBody (tag : Nat) (code : List Byte) (cls opens closes train hold : Nat) : List Byte :=
  beBytes 4 tag ++ code ++ u8 cls ++ beBytes 4 opens ++ beBytes 4 closes ++ beBytes 2 train ++ beBytes 2 hold

/-- The code 417209. -/
def newCode : List Byte := [0x41#8, 0x72#8, 0x09#8]

/-- The wall with no FREE slot left and a request at the head of the inbox. -/
def fullTable (kind : Byte) (body : List Byte) : State :=
  { req kind body with entries := Bank.fill 256 (some slot0) }

theorem witness_ResPutRefusesOrWritesTheLowestFreeSlot_refusals :
    (∀ body, (req 0x40#8 body).HeadIs 0x40#8 body [])
      ∧ (∀ body, (fullTable 0x40#8 body).HeadIs 0x40#8 body [])
      ∧ (putBody 6000 newCode 0 65000 64800 0 600).length = 20 ∧ wall.mode ≠ .drain
      ∧ wall.court = some 64800 ∧ (modeReq .drain []).mode = .drain ∧ State.reset.court = none
      ∧ natAt (putBody 6000 newCode 0 64000 64800 0 600) 12 4 ≤ 64800
      ∧ natAt (putBody 6000 newCode 0 64800 64800 0 600) 12 4 ≤ natAt (putBody 6000 newCode 0 64800 64800 0 600) 8 4
      ∧ codeOf (fieldAt (putBody 6000 [0x41#8, 0x72#8, 0x0A#8] 0 0 0 0 0) 4 3) = none
      ∧ codeOf (fieldAt (putBody 6000 [0#8, 0#8, 0#8] 0 0 0 0 0) 4 3) = some 0
      ∧ classTable.get 3 = none ∧ (classTable.get 0).map FoodClass.holdLimit = some 5400
      ∧ natAt (putBody 6000 newCode 0 65000 65001 0 599) 18 2 < 600
      ∧ 5400 < natAt (putBody 6000 newCode 0 65000 65001 0 5401) 18 2
      ∧ (wall.entry 0).map Reservation.tag = some (natAt (putBody 5001 newCode 0 65000 65001 0 600) 0 4)
      ∧ (∀ i, (fullTable 0x40#8 []).entry i ≠ none)
      ∧ slot0.tag ≠ natAt (putBody 6000 newCode 0 65000 65001 0 5400) 0 4
      ∧ some slot0.code ≠ codeOf (fieldAt (putBody 6000 newCode 0 65000 65001 0 5400) 4 3) := by
  refine ⟨fun _ => req_head _ _, fun _ => req_head _ _, ?_⟩
  decide +kernel

theorem witness_ResPutRefusesOrWritesTheLowestFreeSlot_writing :
    let body := putBody 6000 newCode 0 64800 64801 417 5400
    (req 0x40#8 body).HeadIs 0x40#8 body [] ∧ body.length = 20 ∧ natAt body 0 4 ≠ 0
      ∧ codeOf (fieldAt body 4 3) = some 417209 ∧ natAt body 7 1 = (0 : ClassId).val
      ∧ natAt body 8 4 < natAt body 12 4 ∧ 64800 < natAt body 12 4 ∧ natAt body 18 2 = 5400
      ∧ wall.entry 6 = none ∧ (∀ j, j < (6 : Slot) → wall.entry j ≠ none)
      ∧ ∀ x ∈ [slot0, slot1, slot2, slot3, slot4, slot5], x.tag ≠ natAt body 0 4 ∧ x.code ≠ 417209 := by
  refine ⟨req_head _ _, ?_⟩
  decide +kernel

theorem test_resPut :
    (after (exec .resPut (req 0x40#8 (putBody 6000 newCode 0 64800 64801 417 5400)))).entry 6
      = some ⟨6000, 417209, 0, 64800, 64801, some 417, some 5400, .booked⟩ := by decide +kernel

theorem req_unique (kind : Byte) (body : List Byte) : (req kind body).UniqueKeys := witness_UniqueKeys

theorem req_binding (kind : Byte) (body : List Byte) : (req kind body).BindingLaw := witness_BindingLaw

theorem witness_ResDropByEntryState :
    (∀ body, (req 0x41#8 body).HeadIs 0x41#8 body []) ∧ (∀ body, (req 0x41#8 body).UniqueKeys)
      ∧ (beBytes 4 5001).length = 4 ∧ natAt (beBytes 4 5001) 0 4 = slot0.tag ∧ slot0.stage = .booked
      ∧ natAt (beBytes 4 5002) 0 4 = slot1.tag ∧ slot1.stage = .ready 1 63900
      ∧ natAt (beBytes 4 5003) 0 4 = slot2.tag ∧ slot2.stage = .releasing 8 63300 none
      ∧ natAt (beBytes 4 0) 0 4 = 0
      ∧ ∀ x ∈ [slot0, slot1, slot2, slot3, slot4, slot5], x.tag ≠ natAt (beBytes 4 4294967295) 0 4 := by
  refine ⟨fun _ => req_head _ _, fun _ => req_unique _ _, ?_⟩
  decide +kernel

theorem test_resDrop :
    ((after (exec .resDrop (req 0x41#8 (beBytes 4 5002)))).locker 1).state
      = .spoiled (some ⟨5002, .dropped⟩) := by decide +kernel

/-- The body of a RES-SHIFT. -/
def shiftBody (tag closes opens : Nat) : List Byte := beBytes 4 tag ++ beBytes 4 closes ++ beBytes 4 opens

theorem witness_ResShiftMovesOneWindow :
    (∀ body, (req 0x42#8 body).HeadIs 0x42#8 body []) ∧ (∀ body, (req 0x42#8 body).UniqueKeys)
      ∧ (shiftBody 5002 67501 0).length = 12 ∧ natAt (shiftBody 5002 67501 0) 0 4 = slot1.tag
      ∧ natAt (shiftBody 5002 67501 0) 8 4 = 0 ∧ slot1.opens < natAt (shiftBody 5002 67501 0) 4 4
      ∧ (wall.locker 1).state.meal = some (1, ⟨67500, 0⟩) ∧ min 67501 67500 = 67500
      ∧ natAt (shiftBody 5002 65400 0) 4 4 ≤ slot1.opens ∧ slot2.tag = natAt (shiftBody 5003 1 0) 0 4
      ∧ natAt (shiftBody 5001 64800 64799) 4 4 = 64800
      ∧ natAt (shiftBody 5001 64800 64799) 8 4 < natAt (shiftBody 5001 64800 64799) 4 4 := by
  refine ⟨fun _ => req_head _ _, fun _ => req_unique _ _, ?_⟩
  decide +kernel

/-- A new close at court time makes a BOOKED entry overdue: it expires NOT-LOADED. -/
theorem test_resShift :
    let t := after (exec .resShift (req 0x42#8 (shiftBody 5001 64800 64799)))
    t.entry 0 = none ∧ t.notices = [.expired 5001 .notLoaded none]
      ∧ (after (exec .resShift (req 0x42#8 (shiftBody 5002 67501 0)))).entry 1
          = some { slot1 with closes := 67500 } := by decide +kernel

/-- The body of a TRAIN-SHIFT. -/
def trainBody (train : Nat) (delta : Int) : List Byte := beBytes 2 train ++ beInt16 delta

theorem witness_TrainShiftWalksTheSlots_start :
    (∀ body, (req 0x43#8 body).HeadIs 0x43#8 body [])
      ∧ (trainBody 417 7200).length = 4 ∧ natAt (trainBody 65535 7200) 0 2 = 65535
      ∧ (∀ d ∈ [(-3601 : Int), -3600, 0, 7200, 7201], intOf16 (fieldAt (trainBody 417 d) 2 2) = d)
      ∧ natAt (trainBody 0 0) 0 2 = 0 ∧ (req 0x43#8 []).shift = none
      ∧ ({ req 0x43#8 [] with shift := some ⟨1, 0, 0, 0, 0, 0⟩ } : State).shift ≠ none := by
  refine ⟨fun _ => req_head _ _, ?_⟩
  decide +kernel

theorem test_trainShift :
    (after (exec .trainShift (req 0x43#8 (trainBody 417 (-3600))))).shift
      = some ⟨417, -3600, 0, 0, 0, 1001000⟩ := by decide +kernel

theorem witness_TrainShiftWalksTheSlots_visits :
    (shifting 0 0).held = false ∧ (∀ i n, (shifting i n).shift = some ⟨417, 1200, i, n, 0, 1000000⟩)
      ∧ slot0.train = some 417 ∧ slot0.stage = .booked ∧ slot1.train = some 417
      ∧ slot1.stage = .ready 1 63900 ∧ (wall.locker 1).state.meal = some (1, ⟨67500, 0⟩)
      ∧ slot2.train = some 417 ∧ slot2.stage = .releasing 8 63300 none ∧ slot3.train ≠ some 417
      ∧ slot4.stage = .opened 19 63600 none ∧ slot5.stage = .loading 2
      ∧ (shifting 255 0).entry 255 = none := by
  refine ⟨rfl, fun _ _ => rfl, ?_⟩
  decide +kernel

/-- The visit of slot 255 ends the walk. -/
theorem test_trainShiftVisit :
    (after (exec .trainShiftVisit (shifting 255 2))).shift = none
      ∧ (after (exec .trainShiftVisit (shifting 255 2))).sending
          = some ⟨(Notice.shiftDone 417 2 0).frame.chars, false⟩ := by decide +kernel

theorem witness_ResReadReportsAnEntry :
    (∀ body, (req 0x44#8 body).HeadIs 0x44#8 body []) ∧ (∀ body, (req 0x44#8 body).UniqueKeys)
      ∧ (999999 : Nat) < 1000000 ∧ [0xFF#8] = [(0xFF#8 : Byte)] ∧ natAt (beBytes 4 0) 0 4 = 0 ∧ natAt (beBytes 4 5001) 0 4 = slot0.tag
      ∧ wall.entry 0 = some slot0 ∧ wall.entry 255 = none ∧ slot0.stage = .booked
      ∧ wall.entry 5 = some slot5 ∧ slot5.stage = .loading 2 ∧ slot1.stage = .ready 1 63900
      ∧ slot2.stage = .releasing 8 63300 none ∧ slot4.stage = .opened 19 63600 none := by
  refine ⟨fun _ => req_head _ _, fun _ => req_unique _ _, ?_⟩
  decide +kernel

theorem test_resRead :
    (after (exec .resRead (req 0x44#8 [6#8]))).sending
      = some ⟨(Frame.mk 13#4 0#4 0xC4#8 ([0x40#8, 6#8, 0#8, 1#8, 0#8, 0#8, 0xFD#8, 0x20#8] ++ beBytes 26 0)).chars,
          false⟩ := by decide +kernel

/-- A part that waits for court time alone: the initial walk has ended, locker 1.6 purges and locker 1.7 rests
with their times UNSET, and column 4 settles. -/
def unsetWall (body : List Byte) : State :=
  { req 0x45#8 body with
    court := none, mode := .starting, ledLow := false, clockMark := false, entries := .fill 256 none
    lockers := ((Bank.fill 64 Locker.reset).set 5 (box (.purging none) .no)).set 6 (box (.purgeRest none) .no)
    columns := (Bank.fill 8 activeColumn).set 3 { activeColumn with state := .settling none } }

theorem unsetWall_binding (body : List Byte) : (unsetWall body).BindingLaw := by
  have free : ∀ l, ((unsetWall []).lockers.get l).state.slot = none := by decide +kernel
  have none' : ∀ i, (unsetWall []).entries.get i = none := by decide +kernel
  refine ⟨fun l i h => ?_, fun i r l h _ => ?_⟩
  · cases (free l).symm.trans h
  · cases (none' i).symm.trans h

theorem witness_CourtTimeIsSetAndAdvances :
    (∀ body, (unsetWall body).HeadIs 0x45#8 body [] ∧ (unsetWall body).BindingLaw ∧ (unsetWall body).court = none
        ∧ (unsetWall body).mode = .starting ∧ (unsetWall body).walkEnded = true
        ∧ (unsetWall body).notices.length < 64)
      ∧ ((unsetWall []).locker 5).state = .purging none ∧ ((unsetWall []).locker 6).state = .purgeRest none
      ∧ ((unsetWall []).column 3).state = .settling none
      ∧ natAt (beBytes 4 4294967294) 0 4 < 4294967295 ∧ ¬natAt (beBytes 4 4294967295) 0 4 < 4294967295
      ∧ ¬(State.reset.mode = .starting ∧ State.reset.walkEnded = true)
      ∧ (∀ body, (req 0x45#8 body).HeadIs 0x45#8 body []) ∧ (beBytes 4 65100).length = 4
      ∧ wall.entry 0 ≠ none ∧ wall.court = some 64800 ∧ natAt (beBytes 4 65100) 0 4 = 64800 + 300
      ∧ natAt (beBytes 4 65101) 0 4 = 64800 + 301 ∧ natAt (beBytes 4 64499) 0 4 + 301 = 64800
      ∧ State.reset.court = none ∧ State.reset.held = false
      ∧ ({ wall with court := some 4294967295 } : State).court = some 4294967295 := by
  refine ⟨fun body => ⟨req_head 0x45#8 body, unsetWall_binding body, rfl, rfl, rfl, Nat.zero_lt_succ 63⟩, ?_, ?_, ?_, ?_, ?_, ?_,
    fun _ => req_head _ _, ?_⟩ <;> decide +kernel

theorem test_courtTimeAdvance :
    (after (exec .courtTimeAdvance wall)).court = some 64801
      ∧ (after (exec .courtTimeAdvance { wall with court := some 4294967295 })).court = some 4294967295 := by
  decide +kernel

/-- A step of more than 300 seconds is refused, one of 300 taken; the deadlines it passes are taken whatever
their order. -/
theorem test_clockSet :
    (after (exec .clockSet (req 0x45#8 (beBytes 4 65101)))).court = some 64800
      ∧ (after (exec .clockSet { req 0x45#8 (beBytes 4 4) with court := none, entries := .fill 256 none
                                                               lockers := .fill 64 .reset })).court
          = some 4 := by decide +kernel

/-- The first CLOCK-SET writes the times held as UNSET and ends STARTING; a settle until at the highest court time
is due at once. -/
theorem test_firstClockSet :
    let t := after (exec .clockSet (unsetWall (beBytes 4 4294967000)))
    (t.locker 5).state = .purging (some 4294967000) ∧ (t.locker 6).state = .purgeRest (some 4294967120)
      ∧ (t.column 3).state = .settling (some 4294967090) ∧ t.mode = .run ∧ t.ledLow = true
      ∧ ((after (exec .clockSet { unsetWall (beBytes 4 4294967295) with lockers := .fill 64 .reset })).column 3).state
          = .active := by decide +kernel

theorem witness_ClockSetLeavesNoDeadlineBehind :
    (∀ body, (req 0x45#8 body).HeadIs 0x45#8 body [] ∧ (req 0x45#8 body).BindingLaw)
      ∧ (beBytes 4 65100).length = 4 ∧ natAt (beBytes 4 65100) 0 4 = 65100 ∧ wall.court = some 64800
      ∧ ¬(64800 + 300 < 65100 ∨ 65100 + 300 < 64800) ∧ (wallAt 65399).court ≠ some (natAt (beBytes 4 65400) 0 4)
      ∧ wall.entry 2 = some slot2 ∧ slot2.stage = .releasing 8 63300 none ∧ slot2.closes = 65400
      ∧ (wall.locker 8).state.meal = some (2, ⟨66900, 0⟩)
      ∧ wall.entry 4 = some slot4 ∧ slot4.stage = .opened 19 63600 none
      ∧ (wall.locker 19).state.meal = some (4, ⟨67200, 0⟩) := by
  refine ⟨fun _ => ⟨req_head _ _, req_binding _ _⟩, ?_⟩
  decide +kernel

theorem wallAt_binding (t : Nat) : (wallAt t).BindingLaw := witness_BindingLaw

theorem witness_TimedReasonsByEntryState :
    (∀ t, (wallAt t).held = false ∧ (wallAt t).court = some t ∧ (wallAt t).BindingLaw)
      ∧ wall.entry 6 = none ∧ slot0.closes = 66600 ∧ slot0.stage = .booked ∧ slot5.stage = .loading 2
      ∧ slot1.stage = .ready 1 63900 ∧ slot1.closes = 66600 ∧ slot2.stage = .releasing 8 63300 none
      ∧ slot4.stage = .opened 19 63600 none ∧ (wall.locker 3).state.meal = none
      ∧ (wall.locker 1).state = .holding 1 ⟨67500, 0⟩ ∧ (wall.locker 8).state.meal = some (2, ⟨66900, 0⟩)
      ∧ (wall.locker 19).state.meal = some (4, ⟨67200, 0⟩) := by
  refine ⟨fun t => ⟨rfl, rfl, wallAt_binding t⟩, ?_⟩
  decide +kernel

theorem test_windowClose :
    (after (exec (.windowClose 0) (wallAt 66600))).sending
        = some ⟨(Notice.expired 5001 .notLoaded none).frame.chars, false⟩
      ∧ (after (exec (.windowClose 0) (wallAt 66599))).entry 0 = some slot0
      ∧ (after (exec (.windowClose 2) (wallAt 65400))).entry 2
          = some { slot2 with stage := .releasing 8 63300 (some .window) } := by decide +kernel

theorem test_holdDeadline :
    ((after (exec (.holdDeadline 1) (wallAt 67500))).locker 1).state = .spoiled (some ⟨5002, .hold⟩)
      ∧ ((after (exec (.holdDeadline 1) (wallAt 67499))).locker 1).state = .holding 1 ⟨67500, 0⟩ := by
  decide +kernel

/-! ## Lockers, purges and panels -/

theorem witness_ReadsReportAndChangeNothing :
    (∀ kind body, (req kind body).HeadIs kind body []) ∧ natAt [65#8] 0 1 = 65 ∧ natAt [9#8] 0 1 = 9
      ∧ natAt [64#8] 0 1 = (63 : LockerId).val + 1 ∧ natAt [8#8] 0 1 = (7 : Col).val + 1 := by
  refine ⟨fun _ _ => req_head _ _, ?_⟩
  decide

/-- The report of locker 1.2 (HOLDING). -/
theorem test_lockerRead :
    (wall.lockerReport 1).take 6 = [2#8, 6#8, 2#8, 1#8, 0#8, 0#8]
      ∧ (after (exec .lockerRead (req 0x46#8 [2#8]))).sending
          = some ⟨(Frame.mk 13#4 0#4 0xC6#8 (0x40#8 :: wall.lockerReport 1)).chars, false⟩ := by
  decide +kernel

theorem test_columnRead :
    (wall.columnReport 2).take 3 = [3#8, 3#8, 2#8]
      ∧ (after (exec .columnRead (req 0x4C#8 [3#8]))).sending
          = some ⟨(Frame.mk 13#4 0#4 0xCC#8 (0x40#8 :: wall.columnReport 2)).chars, false⟩ := by
  decide +kernel

theorem witness_FaultClearAndPurgeAbortByLockerState_clear :
    (∀ body, (req 0x47#8 body).HeadIs 0x47#8 body []) ∧ natAt [12#8] 0 1 = (11 : LockerId).val + 1
      ∧ (wall.locker 11).state = .blocked .sensor (some ⟨4998, .fault⟩) ∧ (wall.locker 11).occupied = .yes
      ∧ (∀ f st, (wall.locker 1).state ≠ .blocked f st)
      ∧ (({ wall with lockers := wallLockers.set 63 (box (.blocked .latch none) .no) } : State).locker 63)
          = box (.blocked .latch none) .no := by
  refine ⟨fun _ => req_head _ _, by decide, by decide, by decide, ?_, by decide⟩
  intro f st h
  cases h

theorem test_faultClear :
    ((after (exec .faultClear (req 0x47#8 [12#8]))).locker 11).state = .spoiled (some ⟨4998, .fault⟩) := by
  decide +kernel

theorem witness_DoorHeldIsReportedOnce :
    wall.held = false ∧ (wall.locker 2).state = .loading 5 .unlatched (openSince 6000)
      ∧ (wall.locker 10).state = .clearing none .unlatched (openSince 7000)
      ∧ (wall.locker 19).state = .opened 4 ⟨67200, 0⟩ (openSince 5000)
      ∧ (openSince 6000).since = some 6000 ∧ (openSince 6000).reported = false
      ∧ Door.none.since = none ∧ (⟨some 1, true, none⟩ : Door).reported = true := by decide

theorem test_doorHeld :
    (after (exec (.doorHeld 19) wall)).now = 90005000
      ∧ (after (exec (.doorHeld 19) wall)).sending = some ⟨(Notice.doorHeld 19 .front).frame.chars, false⟩
      ∧ (after (exec (.doorHeld 2) wall)).now = 120006000 := by decide +kernel

/-- The wall with a full Operation Queue and a request at the head of the inbox. -/
def fullQueue (kind : Byte) (body : List Byte) : State :=
  { req kind body with
    ops := (List.range 31).map fun k => { unlatchOp 12 .front .load none with tag := k + 1 } }

theorem fullQueue_head (kind : Byte) (body : List Byte) : (fullQueue kind body).HeadIs kind body [] := by
  refine ⟨rfl, ?_, rfl, rfl⟩
  show State.passOutstanding (fullQueue 0#8 []) < 8 - 0
  decide +kernel

theorem witness_FaultClearAndPurgeAbortByLockerState_abort :
    (∀ body, (req 0x4A#8 body).HeadIs 0x4A#8 body []) ∧ (∀ body, (fullQueue 0x4A#8 body).HeadIs 0x4A#8 body [])
      ∧ natAt [6#8] 0 1 = (5 : LockerId).val + 1 ∧ (wall.locker 5).state = .purging (some 64200)
      ∧ wall.reachable (lockerCol 5) = true ∧ wall.abortOutstanding 5 = false ∧ 0 < wall.freeEntries
      ∧ (fullQueue 0x4A#8 []).freeEntries = 0 ∧ (fullQueue 0x4A#8 []).abortOutstanding 5 = false
      ∧ ({ wall with columns := wallColumns.set 0 { activeColumn with state := .lost } } : State).reachable
          (lockerCol 5) = false
      ∧ (after (exec .purgeAbort (req 0x4A#8 [6#8]))).abortOutstanding 5 = true := by
  refine ⟨fun _ => req_head _ _, fun _ => fullQueue_head _ _, ?_⟩
  decide +kernel

theorem test_purgeAbort :
    ((after (exec .purgeAbort (req 0x4A#8 [6#8]))).ops.map Op.kind) = [0x04#8, 0x10#8, 0x07#8]
      ∧ (after (exec .purgeAbort (req 0x4A#8 [6#8]))).locker 5 = wall.locker 5 := by decide +kernel

theorem witness_CourtTimeDeadlinesFallDue :
    (∀ t, (wallAt t).held = false ∧ (wallAt t).court = some t)
      ∧ (wall.locker 5).state = .purging (some 64200) ∧ min 4294967295 (64200 + 600) = 64800
      ∧ (wall.locker 6).state = .purgeRest (some 64800) ∧ (wall.column 3).lockout = some 64800
      ∧ (wall.column 3).state = .settling (some 64800) ∧ (wall.column 0).lockout = none
      ∧ (({ wall with lockers := wallLockers.set 5 (box (.purging none) .no) } : State).locker 5).state
          = .purging none
      ∧ (({ wall with lockers := wallLockers.set 6 (box (.purgeRest none) .no) } : State).locker 6).state
          = .purgeRest none
      ∧ (({ wall with columns := wallColumns.set 0 { activeColumn with state := .settling none } } : State).column
          0).state = .settling none := by
  refine ⟨fun _ => ⟨rfl, rfl⟩, ?_⟩
  decide

theorem test_deadlines :
    ((after (exec (.purgeStall 5) wall)).locker 5).state = .blocked .purgeStall none
      ∧ (after (exec (.purgeStall 5) (wallAt 64799))).locker 5 = wall.locker 5
      ∧ ((after (exec (.restEnd 6) wall)).locker 6).state = .purgeWait
      ∧ ((after (exec (.lockoutEnd 3) wall)).column 3).wrong = 0
      ∧ ((after (exec (.settleEnd 3) wall)).column 3).state = .active := by decide +kernel

/-- A locker with its back door not yet unlatched, its load in slot 5. -/
def unlatching : State := { wall with lockers := wallLockers.set 2 (box (.loading 5 .awaitLatch Door.none) .no) }

theorem witness_FaultsBlockTheLocker :
    (wall.locker 63).state = .absent ∧ (wall.locker 11).state = .blocked .sensor (some ⟨4998, .fault⟩)
      ∧ (wall.locker 4).state = .purgeWait ∧ (wall.locker 7).state = .spoiled (some ⟨4999, .window⟩)
      ∧ (wall.locker 5).state = .purging (some 64200)
      ∧ (wall.locker 1).state = .holding 1 ⟨67500, 0⟩ ∧ wall.entry 1 = some slot1 ∧ slot1.stage = .ready 1 63900
      ∧ (wall.locker 8).state = .releasing 2 ⟨66900, 0⟩ ∧ wall.entry 2 = some slot2
      ∧ slot2.stage = .releasing 8 63300 none
      ∧ (wall.locker 19).state = .opened 4 ⟨67200, 0⟩ (openSince 5000) ∧ wall.entry 4 = some slot4
      ∧ slot4.stage = .opened 19 63600 none
      ∧ (wall.locker 2).state = .loading 5 .unlatched (openSince 6000) ∧ wall.entry 5 = some slot5
      ∧ slot5.stage = .loading 2 ∧ LockerFault.tamper ≠ .latch
      ∧ (unlatching.locker 2).state = .loading 5 .awaitLatch Door.none ∧ unlatching.entry 5 = some slot5 := by
  decide

theorem witness_FrontDoorEndsARelease :
    wall.entry 4 = some slot4 ∧ (wall.locker 19).state = .opened 4 ⟨67200, 0⟩ (openSince 5000)
      ∧ slot4.stage = .opened 19 63600 none ∧ (openSince 5000).mask = none ∧ wall.overdue slot4 = false
      ∧ (⟨some 5000, false, some 1000000⟩ : Door).mask = some wall.now
      ∧ (({ wall with
            lockers := wallLockers.set 19 (box (.opened 4 ⟨67200, 0⟩ ⟨some 5000, false, some 1000001⟩) .yes)
          } : State).locker 19).state = .opened 4 ⟨67200, 0⟩ ⟨some 5000, false, some 1000001⟩
      ∧ ({ wall with entries := wallEntries.set 4 (some { slot4 with stage := .opened 19 63600 (some .window) })
          } : State).entry 4 = some { slot4 with stage := .opened 19 63600 (some .window) }
      ∧ wall.now < 1000001 ∧ ¬wall.now < 1000000 ∧ Reason.window ≠ .notLoaded
      ∧ (wall.locker 8).state = .releasing 2 ⟨66900, 0⟩ ∧ wall.entry 2 = some slot2
      ∧ slot2.stage = .releasing 8 63300 none ∧ slot2.closes = 65400 ∧ slot4.closes = 65400
      ∧ (wallAt 65399).court = some 65399 ∧ (wallAt 65400).court = some 65400
      ∧ (wall.locker 63).state = .absent ∧ (wall.locker 1).state = .holding 1 ⟨67500, 0⟩
      ∧ (wall.locker 2).state = .loading 5 .unlatched (openSince 6000) := by decide +kernel

/-- The class of the loaded meal. -/
def class0 : FoodClass := ⟨1, 720, 630, 5400, 600, 2⟩

theorem witness_BackDoorEndsALoad :
    (∀ t, (wallAt t).entry 5 = some slot5 ∧ (wallAt t).court = some t
        ∧ ((wallAt t).locker 2).state = .loading 5 .unlatched (openSince 6000))
      ∧ slot5.stage = .loading 2 ∧ wall.classes.get slot5.cls = some class0 ∧ (openSince 6000).mask = none
      ∧ (unlatching.locker 2).state = .loading 5 .awaitLatch Door.none ∧ Door.none.mask = none
      ∧ (∀ t, (⟨some 6000, false, some t⟩ : Door).mask = some t) ∧ wall.now < 1000001 ∧ ¬wall.now < 1000000
      ∧ (wall.locker 10).state = .clearing none .unlatched (openSince 7000)
      ∧ (({ wall with lockers := wallLockers.set 10 (box (.clearing none .awaitLatch Door.none) .yes) } : State).locker
          10).state = .clearing none .awaitLatch Door.none
      ∧ 65999 < min slot5.closes (min 4294967295 (65999 + slot5.holdOverride.getD class0.holdLimit))
      ∧ min slot5.closes (min 4294967295 (66000 + slot5.holdOverride.getD class0.holdLimit)) ≤ 66000 := by
  refine ⟨fun _ => ⟨by rfl, rfl, by rfl⟩, rfl, by decide +kernel, rfl, by decide +kernel, rfl, fun _ => rfl, ?_⟩
  decide +kernel

theorem test_doors :
    (wall.doorClosed 19 .front false).notices = [.collected 5005 19 false]
      ∧ (wall.relatched 8 .front).notices = [.released 5003 8, .notOpened 5003 8]
      ∧ ((wallAt 65400).relatched 8 .front).notices
          = [.released 5003 8, .notOpened 5003 8, .expired 5003 .window (some 8)]
      ∧ (wall.doorOpened 1 .front).notices = [.expired 5002 .tamper (some 1), .lockerFault 1 .tamper]
      ∧ ((wall.relatched 2 .back).locker 2).state = .empty
      ∧ ((wallAt 66000).relatched 2 .back).notices = [.expired 5006 .notLoaded none]
      ∧ (wall.doorClosed 10 .back false).notices = [.discarded none 10]
      ∧ ((wall.doorClosed 2 .back true).locker 2).state = .holding 5 ⟨70200, 0⟩
      ∧ ((wall.takeFault 1 .tamper).locker 1).state = .blocked .tamper (some ⟨5002, .tamper⟩) := by
  decide +kernel

/-- The wall with a panel's wrong count. -/
def wrongWall (n : Nat) : State := { wall with columns := wallColumns.set 0 { activeColumn with wrong := n } }

theorem witness_CodesAreTakenAtThePanel :
    State.reset.mode = .starting ∧ wall.mode ≠ .starting
      ∧ (wallAt 64799).court = some 64799 ∧ ((wallAt 64799).column 3).lockout = some 64800
      ∧ (∀ n, ((wrongWall n).column 0).lockout = none ∧ ((wrongWall n).column 0).wrong = n
          ∧ (wrongWall n).mode ≠ .starting ∧ (wrongWall n).court = some 64800)
      ∧ (wallAt 4294967295).court = some 4294967295 ∧ (wall.column 2).wrong = 4 ∧ (wall.column 2).lockout = none
      ∧ (∀ x ∈ wallLive, x.2.code ≠ 417209) ∧ (wallAt 65400).UniqueKeys
      ∧ (wallAt 65400).entry 0 = some slot0 ∧ slot0.stage = .booked ∧ wall.entry 5 = some slot5
      ∧ slot5.stage = .loading 2 ∧ wall.entry 2 = some slot2 ∧ slot2.stage = .releasing 8 63300 none
      ∧ (wallAt 65400).entry 1 = some slot1 ∧ slot1.code = 100002 ∧ slot1.stage = .ready 1 63900
      ∧ slot1.opens = 65400 ∧ lockerCol 1 = 0 ∧ (wallAt 65400).reachable (lockerCol 1) = true
      ∧ ({ wallAt 65400 with columns := wallColumns.set 0 { activeColumn with state := .lost } } : State).reachable
          (lockerCol 1) = false
      ∧ ((wallAt 65400).locker 1).state = .holding 1 ⟨67500, 0⟩ ∧ (wallAt 65400).doorBusy 1 = false
      ∧ ({ wallAt 65400 with ops := [unlatchOp 1 .back .load (some 1)] } : State).doorBusy 1 = true
      ∧ ((wallAt 65400).column 0).lockout = none ∧ ((wallAt 65400).column 1).lockout = none
      ∧ (65535 : Nat) < 65536 := by
  refine ⟨rfl, by decide, rfl, by decide, fun n => ⟨rfl, rfl, OpMode.noConfusion, rfl⟩, rfl, by decide, by decide,
    by decide, witness_UniqueKeys, ?_⟩
  decide +kernel

theorem test_codes :
    (((wallAt 65400).codeEvent 0 (some 100002)).ops.map Op.kind) = [0x04#8, 0x10#8, 0x04#8, 0x08#8]
      ∧ ((wallAt 65399).codeEvent 0 (some 100002)).entry 1 = some slot1
      ∧ ((wrongWall 4).codeEvent 0 (some 417209)).notices = [.lockout 0 60] := by decide +kernel

theorem witness_BackScansAllocate :
    wall.mode = .run ∧ wall.UniqueKeys ∧ wall.entry 0 = some slot0 ∧ slot0.stage = .booked
      ∧ wall.classes.get slot0.cls = some ⟨2, 800, 700, 3600, 300, 3⟩ ∧ wall.reachable 0 = true
      ∧ wall.reachable 1 = true ∧ (wall.locker 3).state = .empty ∧ 2 ≤ (wall.locker 3).rating
      ∧ wall.doorBusy 3 = false ∧ wall.workable (lockerCol 3) = true
      ∧ (∀ q, lockerCol q = 0 → lockerPos q < lockerPos 3 → (wall.locker q).state ≠ .empty)
      ∧ othersByDistance 1 = [] ++ 0 :: [2, 3, 4, 5, 6, 7]
      ∧ (∀ l, lockerCol l = 1 → (wall.locker l).state ≠ .empty)
      ∧ (modeReq .starting []).mode = .starting ∧ (modeReq .drain []).mode = .drain
      ∧ (∀ x ∈ wallLive, x.2.tag ≠ 4999) ∧ wall.entry 5 = some slot5 ∧ slot5.stage = .loading 2 ∧ lockerCol 2 = 0
      ∧ wall.entry 1 = some slot1 ∧ slot1.stage = .ready 1 63900 ∧ wall.entry 2 = some slot2
      ∧ slot2.stage = .releasing 8 63300 none ∧ wall.entry 4 = some slot4 ∧ slot4.stage = .opened 19 63600 none
      ∧ (∀ l, ({ wall with lockers := wallLockers.set 3 (box .purgeWait .no) }.locker l).state ≠ .empty)
      ∧ lockerCol 7 = 0 ∧ 8 = (lockerPos 7).val + 1 ∧ (wall.locker 7).state = .spoiled (some ⟨4999, .window⟩)
      ∧ (wall.column 0).walkPending = false ∧ wall.doorBusy 7 = false
      ∧ (wall.locker 11).state = .blocked .sensor (some ⟨4998, .fault⟩) ∧ (wall.locker 11).occupied ≠ .no
      ∧ lockerCol 11 = 1 ∧ (wall.column 1).walkPending = false ∧ wall.doorBusy 11 = false
      ∧ lockerCol 1 = 0 ∧ (wall.locker 1).state = .holding 1 ⟨67500, 0⟩ := by
  refine ⟨rfl, witness_UniqueKeys, ?_⟩
  decide +kernel

theorem test_backScan :
    ((wall.backScan 0 5001).locker 3).state = .loading 0 .awaitLatch Door.none
      ∧ (wall.backScan 1 5001).notices = [.loadRefused 5001 1 (some 0)]
      ∧ ({ wall with lockers := wallLockers.set 3 (box .purgeWait .no) }.backScan 1 5001).notices
          = [.loadRefused 5001 1 none]
      ∧ (wall.backScan 1 5006).ops.drop 2 = [{ panelOp 1 .back .inProgress with tag := 1, notBefore := 1000000 }]
      ∧ ((modeReq .drain []).backScan 4 5001).ops = wallOps := by decide +kernel

theorem test_backClear :
    ((wall.backClear 0 8).locker 7).state = .clearing (some ⟨4999, .window⟩) .awaitLatch Door.none
      ∧ ((wall.backClear 1 4).ops.drop 2).map Op.body = [[4#8, 1#8], [1#8, 16#8, 0#8, 12#8]]
      ∧ (∀ n ∈ [0, 2, 9], ((wall.backClear 0 n).ops.drop 2).map Op.body = [[1#8, 17#8, 0#8, 0#8]]) := by
  decide +kernel

/-! ## Heat -/

/-- The body of a CLASS-SET. -/
def classBody (k enabled rating : Nat) (target minimum : Int) (hold cold units : Nat) : List Byte :=
  u8 k ++ u8 enabled ++ u8 rating ++ beInt16 target ++ beInt16 minimum ++ beBytes 2 hold ++ beBytes 2 cold
    ++ u8 units

theorem witness_ClassesAndBudgetsAreSet :
    (∀ kind body, (req kind body).HeadIs kind body [])
      ∧ (classBody 2 1 3 1000 999 14400 3600 3).length = 12
      ∧ natAt (classBody 2 1 3 1000 999 14400 3600 3) 0 1 = (2 : ClassId).val
      ∧ natAt (classBody 2 1 3 1000 999 14400 3600 3) 1 1 = 1
      ∧ FoodClass.inRange ⟨3, 1000, 999, 14400, 3600, 3⟩ = true ∧ FoodClass.inRange ⟨0, 400, 200, 600, 10, 1⟩ = true
      ∧ FoodClass.inRange ⟨0, 400, 400, 600, 10, 1⟩ = false
      ∧ (∀ x ∈ [slot0, slot1, slot2, slot3, slot4, slot5], x.cls ≠ 2) ∧ slot5.cls = 0
      ∧ natAt [8#8, 3#8] 0 1 = (7 : Col).val + 1 ∧ natAt [8#8, 24#8] 1 1 = 24 ∧ natAt [8#8, 25#8] 1 1 = 25
      ∧ natAt [8#8, 2#8] 1 1 = 2 := by
  refine ⟨fun _ _ => req_head _ _, ?_⟩
  decide +kernel

theorem test_classSet :
    (after (exec .classSet (req 0x48#8 (classBody 2 1 3 1000 999 14400 3600 3)))).classes.get 2
        = some ⟨3, 1000, 999, 14400, 3600, 3⟩
      ∧ (after (exec .classSet (req 0x48#8 (classBody 0 0 0 0 0 0 0 0)))).classes.get 0 = some class0 := by
  decide +kernel

theorem test_columnSet :
    ((after (exec .columnSet (req 0x49#8 [8#8, 3#8]))).column 7).pendingBudget = some 3
      ∧ ((after (exec .columnSet (req 0x49#8 [8#8, 3#8]))).column 7).budget = 8 := by decide +kernel

theorem witness_HeatPeriodSharesTheBudget :
    wall.held = false ∧ (wall.column 0).heatNext = some 10000000 ∧ (wall.column 4).heatNext = none
      ∧ heatWall.held = false ∧ (heatWall.column 1).heatNext = some 10000000
      ∧ (heatWall.locker 9).state = .holding 0 ⟨71000, 20⟩ ∧ (heatWall.entry 0).map Reservation.cls = some 0
      ∧ heatWall.classes.get 0 = some class0 ∧ (heatWall.locker 9).lastTemp = some 700
      ∧ (heatWall.locker 11).state = .loading 2 .unlatched Door.none
      ∧ (heatWall.entry 2).map Reservation.cls = some 1 ∧ (heatWall.locker 8).state = .purging (some 64800)
      ∧ (heatWall.locker 13).state = .purgeWait ∧ (wall.locker 7).state = .spoiled (some ⟨4999, .window⟩) := by
  decide +kernel

theorem witness_ReadingsJudgeTheHeldMeal :
    wall.BindingLaw ∧ (wall.locker 1).state = .holding 1 ⟨67500, 0⟩ ∧ wall.entry 1 = some slot1
      ∧ slot1.stage = .ready 1 63900 ∧ wall.classes.get slot1.cls = some ⟨2, 800, 700, 3600, 300, 3⟩
      ∧ (wall.column (lockerCol 1)).state.isSettling = false
      ∧ ({ wall with columns := wallColumns.set 0 { activeColumn with state := .settling none } } : State).column 0
          = { activeColumn with state := .settling none }
      ∧ ((800 : Int) + 200 < 1001) ∧ ¬((800 : Int) + 200 < 1000) ∧ ((699 : Int) < 700) ∧ ¬((700 : Int) < 700)
      ∧ (wall.locker 63).state = .absent ∧ (wall.locker 11).state = .blocked .sensor (some ⟨4998, .fault⟩)
      ∧ (wall.locker 3).state = .empty ∧ (wall.locker 3).state.slot = none
      ∧ (wall.locker 2).state = .loading 5 .unlatched (openSince 6000) ∧ wall.entry 5 = some slot5
      ∧ wall.classes.get slot5.cls = some class0
      ∧ (wall.locker 8).state = .releasing 2 ⟨66900, 0⟩ ∧ wall.entry 2 = some slot2
      ∧ slot2.stage = .releasing 8 63300 none ∧ (wall.column (lockerCol 8)).state.isSettling = false
      ∧ (wall.locker 19).state = .opened 4 ⟨67200, 0⟩ (openSince 5000) ∧ wall.entry 4 = some slot4
      ∧ slot4.stage = .opened 19 63600 none := by
  refine ⟨witness_BindingLaw, ?_⟩
  decide +kernel

/-- The ends of the range of a reading at the last position, and the overheat limit of an unbound locker. -/
theorem test_readings :
    ([1300, 1301, 65336, 65335].map fun v => readingOf (1#8 :: List.replicate 21 0#8 ++ [1#8] ++ beBytes 2 v) 7)
        = [some 1300, none, some (-200), none]
      ∧ (wall.takeReading 0 3 (some 1100)).notices = []
      ∧ (wall.takeReading 0 3 (some 1101)).notices = [.lockerFault 3 .overheat]
      ∧ (wall.takeReading 1 11 (some 1300)).notices = []
      ∧ ((wall.takeReading 1 8 (some 699)).locker 8).state = .releasing 2 ⟨66900, 10⟩ := by decide +kernel

/-! ## Supervision -/

/-- The wall with a walk outstanding and a request at the head of the inbox. -/
def walkingWall (body : List Byte) : State := { req 0x4B#8 body with ops := [initialWalk 0] }

theorem witness_RollCallQueuesAWalk :
    (∀ body, (req 0x4B#8 body).HeadIs 0x4B#8 body []) ∧ (∀ body, (fullQueue 0x4B#8 body).HeadIs 0x4B#8 body [])
      ∧ natAt [9#8] 0 1 = 9 ∧ natAt [8#8] 0 1 = (7 : Col).val + 1 ∧ natAt [0#8] 0 1 = 0
      ∧ (∀ op ∈ wall.ops, op.mode.isWalk = false) ∧ (∀ c, (wall.column c).walkOwed = false)
      ∧ wall.freeEntries ≠ 0 ∧ (fullQueue 0x4B#8 []).freeEntries = 0
      ∧ (∃ op ∈ (walkingWall [0#8]).ops, op.mode.isWalk = true) := by
  refine ⟨fun _ => req_head _ _, fun _ => fullQueue_head _ _, ?_⟩
  decide +kernel

theorem test_rollCall :
    ((after (exec .rollCall (req 0x4B#8 [0#8]))).ops.map Op.kind) = [0x04#8, 0x10#8, 0x03#8]
      ∧ (∀ c, ((after (exec .rollCall (req 0x4B#8 [0#8]))).column c).walkPending = true)
      ∧ ((after (exec .rollCall (req 0x4B#8 [8#8]))).column 0).walkPending = false := by decide +kernel

/-- The wall while columns 1 and 8 are owed a walk. -/
def owing : State :=
  let owed : Column := { activeColumn with walkOwed := true }
  { wall with columns := (wallColumns.set 0 owed).set 7 owed }

theorem witness_PollTimerQueuesAPoll :
    wall.held = false ∧ (∀ op ∈ wall.ops, op.tag ≠ 0) ∧ (∀ c, (wall.column c).walkOwed = false)
      ∧ (owing.column 0).walkOwed = true ∧ (owing.column 7).walkOwed = true ∧ 0 < owing.freeEntries := by
  decide +kernel

theorem test_pollTimer :
    let t := after (exec .pollTimerExpiry wall)
    t.ops.map Op.tag = [2, 3, 0] ∧ t.pollNext = 80000
      ∧ (after (exec .pollTimerExpiry t)).ops.map Op.tag = [2, 3, 0]
      ∧ ((after (exec .pollTimerExpiry owing)).ops.drop 3).map (fun o => (o.tag, o.dest))
          = [(1, .column 0), (4, .column 7)]
      ∧ ((after (exec .pollTimerExpiry owing)).column 7).walkOwed = false := by decide +kernel

theorem witness_SlotAnswersMoveTheColumn :
    wall.QueueLaw ∧ (wall.column 2).state = .active ∧ (wall.column 2).silence = 2 ∧ (wall.column 0).silence = 0
      ∧ (wall.column 4).state = .absent ∧ (wall.column 5).state = .service ∧ (wall.column 6).state = .unseen
      ∧ (wall.column 3).state.reachable = true ∧ 0 < wall.freeEntries ∧ (fullQueue 0#8 []).freeEntries = 0
      ∧ (fullQueue 0#8 []).QueueLaw ∧ (∀ op ∈ wall.ops, op.mode.isWalk = false)
      ∧ (4 : Col) ∈ [(1 : Col), 2, 3, 4, 5, 6, 7] ∧ (initialWalk 0).mode = .walk ⟨[], 0, [1, 2, 3, 4, 5, 6, 7], 0, .initial⟩
      ∧ (wall.column 0).walkPending = false ∧ (∀ op ∈ wall.ops, op.origin ≠ .fetch) := by
  refine ⟨witness_QueueLaw, ?_⟩
  unfold State.QueueLaw
  decide +kernel

theorem test_takeSlot :
    ((wall.takeSlot 2 none).column 2).state = .lost ∧ ((wall.takeSlot 0 none).column 0).silence = 1
      ∧ ((wall.takeSlot 0 (some ⟨false, true⟩)).column 0).state = .service
      ∧ ((wall.takeSlot 0 (some ⟨false, true⟩)).replies) = [⟨0x90#8, 1#4, [0x4D#8], false⟩] := by
  decide +kernel

/-- A descriptor of rating 2, its doors closed and no purge running. -/
def closedBox (occupied : Bool) : Descriptor := ⟨2, occupied, false, false, false, none⟩

/-- The wall with a back door operation outstanding for every locker of columns 1 and 2. -/
def busyWall : State := { wall with ops := (List.finRange 16).map fun k => unlatchOp (Fin.ofNat 64 k.val) .back .clear none }

/-- A descriptor with both latches open. -/
def openBox : Descriptor := ⟨2, true, true, true, false, some 600⟩

theorem witness_PositionsReadAsPresentAreReconciled :
    (closedBox true).purgeRunning = false ∧ ({ openBox with purgeRunning := true } : Descriptor).purgeRunning = true
      ∧ (∀ l ∈ [1, 2, 3, 4, 5, 6, 7, 11, 19, 63], wall.doorBusy l = false)
      ∧ (wall.locker 63).state = .absent ∧ (wall.locker 3).state = .empty ∧ (wall.locker 4).state = .purgeWait
      ∧ (wall.locker 11).state = .blocked .sensor (some ⟨4998, .fault⟩)
      ∧ (wall.locker 6).state = .purgeRest (some 64800) ∧ (wall.locker 5).state = .purging (some 64200)
      ∧ (wall.locker 7).state = .spoiled (some ⟨4999, .window⟩)
      ∧ (wall.locker 2).state = .loading 5 .unlatched (openSince 6000) ∧ wall.entry 5 = some slot5
      ∧ slot5.stage = .loading 2 ∧ wall.classes.get slot5.cls = some class0 ∧ slot5.closes = 66000
      ∧ (wallAt 65999).court = some 65999 ∧ (wallAt 66000).court = some 66000
      ∧ (wall.locker 1).state = .holding 1 ⟨67500, 0⟩ ∧ wall.entry 1 = some slot1 ∧ slot1.stage = .ready 1 63900
      ∧ (wall.locker 19).state = .opened 4 ⟨67200, 0⟩ (openSince 5000) ∧ wall.entry 4 = some slot4
      ∧ slot4.stage = .opened 19 63600 none ∧ wall.overdue slot4 = false
      ∧ (∀ l ∈ [2, 4, 5, 8, 10], busyWall.doorBusy l = true)
      ∧ (busyWall.locker 8).state = .releasing 2 ⟨66900, 0⟩ ∧ wall.entry 2 = some slot2
      ∧ slot2.stage = .releasing 8 63300 none ∧ openBox.frontOpen = true ∧ openBox.backOpen = true
      ∧ (unlatching.locker 2).state = .loading 5 .awaitLatch Door.none := by decide +kernel

/-- Table 7-7: every bit by itself, and the ends of the temperature's range. -/
theorem test_descriptor :
    descriptorOf ([3#8, 0x07#8] ++ beBytes 2 300) = ⟨3, true, false, false, false, none⟩
      ∧ descriptorOf ([3#8, 0x48#8] ++ beBytes 2 1300) = ⟨0, false, true, false, false, some 1300⟩
      ∧ descriptorOf ([3#8, 0xD0#8] ++ beBytes 2 1301) = ⟨0, false, false, true, false, none⟩
      ∧ descriptorOf ([3#8, 0x61#8] ++ beBytes 2 65336) = ⟨1, false, false, false, true, some (-200)⟩
      ∧ descriptorOf ([3#8, 0x42#8] ++ beBytes 2 65335) = ⟨2, false, false, false, false, none⟩ := by decide +kernel

theorem witness_WalkStepsReadTheColumns :
    wall.QueueLaw ∧ (initialWalk 0).mode = .walk ⟨[], 0, [1, 2, 3, 4, 5, 6, 7], 0, .initial⟩
      ∧ (walkOp 3 [] .returning).mode = .walk ⟨[], 3, [], 0, .returning⟩
      ∧ flagsOf 0x03#8 = ⟨true, true, false⟩ ∧ flagsOf 0x01#8 = ⟨true, false, false⟩
      ∧ flagsOf 0x00#8 = ⟨false, false, false⟩
      ∧ (wall.column 0).state = .active ∧ (wall.column 4).state = .absent ∧ (wall.column 5).state = .service
      ∧ (wall.column 6).state = .unseen
      ∧ ({ wall with columns := wallColumns.set 0 { activeColumn with state := .lost } } : State).column 0
          = { activeColumn with state := .lost }
      ∧ (wall.locker 63).state.slot = none ∧ (wall.locker 2).state = .loading 5 .unlatched (openSince 6000)
      ∧ wall.entry 5 = some slot5 ∧ slot5.stage = .loading 2
      ∧ (wall.locker 1).state.meal = some (1, ⟨67500, 0⟩) ∧ wall.entry 1 = some slot1
      ∧ slot1.stage.locker = some 1 := by
  refine ⟨witness_QueueLaw, ?_⟩
  decide +kernel

theorem test_reconcile :
    ((wall.reconcilePresent 3 (closedBox true)).locker 3).state = .spoiled none
      ∧ (wall.reconcilePresent 1 (closedBox false)).notices = [.expired 5002 .missing (some 1)]
      ∧ ((wall.reconcilePresent 5 openBox).locker 5).state = .purgeRest (some 64920)
      ∧ ((wall.reconcilePresent 4 { closedBox false with purgeRunning := true }).locker 4).state
          = .purgeRest (some 64920) := by decide +kernel

/-- With a door operation outstanding the free value decides whether a PURGING locker comes to rest. -/
theorem test_reconcilePurgingKept :
    ((busyWall.reconcilePresent 5 { openBox with purgeRunning := true }).locker 5).state
      = if restOverDoor busyWall.now 5 then .purgeRest (some 64920) else .purging (some 64200) := by
  unfold State.reconcilePresent State.staysForDoor State.restReaches
  change _ = if restOverDoor busyWall.now (5 : LockerId).val then _ else _
  generalize restOverDoor busyWall.now (5 : LockerId).val = resting
  cases resting <;> decide +kernel

/-- The same for a PURGE-WAIT locker whose purge is found running; its abort is queued either way. -/
theorem test_reconcileWaitKept :
    let u := busyWall.reconcilePresent 4 { openBox with purgeRunning := true }
    (u.locker 4).state = (if restOverDoor busyWall.now 4 then .purgeRest (some 64920) else .purgeWait)
      ∧ (u.ops.drop 16).map Op.kind = [0x07#8] := by
  unfold State.reconcilePresent State.staysForDoor State.restReaches
  change _ = (if restOverDoor busyWall.now (4 : LockerId).val then _ else _) ∧ _
  generalize restOverDoor busyWall.now (4 : LockerId).val = resting
  cases resting <;> decide +kernel

/-- The last step of the initial walk: position 1 of column 8 ruled out. -/
theorem test_walkEnds :
    let t := { wall with mode := .starting, ledLow := false, walkEnded := false }.walkStep 5
      ⟨[0, 1, 2, 3, 4, 5, 6], 7, [], 0, .initial⟩ (some (⟨true, false, false⟩, [1#8]))
    t.notices = [.columnState 7 .active, .inventoryDone 6 12, .mode .run] ∧ t.ledLow = true
      ∧ (t.column 7).walkPending = false := by decide +kernel

/-! ## The column port and the Operation Queue -/

theorem witness_OperationsTakeTheLowestFreeEntry :
    wall.QueueLaw ∧ 0 < wall.freeEntries ∧ wall.lowestTag = 1 ∧ (fullQueue 0#8 []).freeEntries = 0 := by
  refine ⟨witness_QueueLaw, ?_⟩
  decide +kernel

/-- The wall with the streak count and the operations given. -/
def queueWall (streak : Nat) (ops : List Op) : State := { wall with streak := streak, ops := ops }

theorem witness_SchedulerChoosesByClassAndAge :
    wall.ops = [] ++ urgentOp :: [routineOp] ∧ wall.ops = [urgentOp] ++ routineOp :: []
      ∧ urgentOp.cls = .urgent ∧ routineOp.cls = .routine
      ∧ (∀ n, (queueWall n wallOps).eligible 1000000 urgentOp = true
          ∧ (queueWall n wallOps).eligible 1000000 routineOp = true)
      ∧ (queueWall 0 [urgentOp]).eligible 1000000 urgentOp = true
      ∧ (queueWall 0 [routineOp]).eligible 1000000 routineOp = true
      ∧ (pollOp 0).origin = .poll ∧ (walkOp 3 [] .returning).origin ≠ .poll
      ∧ (walkOp 3 [] .returning).mode = .walk ⟨[], 3, [], 0, .returning⟩
      ∧ (passOp .all 0x10#8 .once []).origin ≠ .poll ∧ (passOp .all 0x10#8 .once []).mode.isWalk = false
      ∧ (passOp .all 0x10#8 .once []).dest = .all ∧ urgentOp.origin ≠ .poll ∧ urgentOp.mode.isWalk = false
      ∧ urgentOp.dest = .column 1 := by
  refine ⟨rfl, rfl, rfl, rfl, fun _ => ⟨rfl, rfl⟩, rfl, rfl, rfl, ?_⟩
  decide

/-- Quiet until and not-before have passed at their own moment; in SERVICE only a kind that may pass there is able. -/
theorem test_eligible :
    (∀ t ∈ [(999999, false), (1000000, true)],
        wall.eligible t.1 { urgentOp with notBefore := 1000000 } = t.2
          ∧ ({ wall with columns := wallColumns.set 1 { activeColumn with quiet := some 1000000 } } : State).eligible
              t.1 { urgentOp with notBefore := 0 } = t.2)
      ∧ wall.eligible 1000000 (passOp (.column 5) 0x09#8 .once []) = true
      ∧ wall.eligible 1000000 (passOp (.column 5) 0x10#8 .once []) = false
      ∧ wall.eligible 1000000 (passOp .all 0x10#8 .once []) = false := by decide +kernel

theorem test_choose :
    (queueWall 4 wallOps).choose 1000000 = some (routineOp, 0)
      ∧ (queueWall 3 wallOps).choose 1000000 = some (urgentOp, 4) := by decide

/-- FETCHes of two columns at the head of a queue with three free entries. -/
def crowded : State :=
  { wall with
    ops := { fetchOp 0 with tag := 1 } :: { fetchOp 1 with tag := 2 }
      :: (List.range 26).map fun k => { urgentOp with tag := k + 3, notBefore := 2000000 } }

/-- A COUNTED operation of two items that has made as many of its exchanges as given. -/
def countedOp (n : Nat) : Op := passOp (.column 0) 0x10#8 (.counted n) [2#8, 5#8, 6#8]

theorem witness_PortGrantStartsTheExchange :
    wall.held = false ∧ wall.firstMoment = some 1000000 ∧ wall.choose 1000000 = some (urgentOp, 1)
      ∧ urgentOp.origin ≠ .fetch ∧ (awaitingWall 1).exchange ≠ none
      ∧ crowded.firstMoment = some 1000000 ∧ crowded.freeEntries = 3
      ∧ (crowded.chooseFrom crowded.ops 1000000).map (fun x => (x.1.tag, x.1.origin)) = some (1, .fetch)
      ∧ (crowded.chooseFrom (crowded.ops.filter fun o => o.tag != 1) 1000000).map
          (fun x => (x.1.tag, x.1.origin)) = some (2, .fetch)
      ∧ crowded.chooseFrom (crowded.ops.filter fun o => o.tag != 1 && o.tag != 2) 1000000 = none
      ∧ (queueWall 0 []).firstMoment = none
      ∧ ({ wall with released := some 999900 } : State).firstMoment = some 1000100
      ∧ (countedOp 1).body = 2#8 :: [5#8, 6#8] ∧ [5#8, (6#8 : Byte)][1]? = some 6#8 ∧ (countedOp 1).mode = .counted 1
      ∧ (walkOp 3 [] .returning).mode = .walk ⟨[], 3, [], 0, .returning⟩ ∧ (pollOp 0).dest = .all := by
  decide +kernel

/-- Two FETCHes with three free entries: the entry the first one leaves does not let the second one start. -/
theorem test_portGrant :
    ((after (exec .portGrant wall)).exchange.map Exchange.request)
        = some (Frame.mk 2#4 0#4 0x04#8 [1#8, 0#8]).chars
      ∧ (after (exec .portGrant wall)).streak = 1 ∧ (after (exec .portGrant wall)).driverEnable = true
      ∧ (countedOp 1).request.body = [6#8, 5#8, 6#8]
      ∧ (after (exec .portGrant crowded)).exchange = none ∧ (after (exec .portGrant crowded)).ops.length = 26 := by
  decide +kernel

/-- The reply window has closed with that frame begun. -/
def closingWall : State :=
  { wall with
    now := 1007000, exchange := some (panelExchange .closing 2)
    columnRx := .assembling (strayFrame.take 3) 1006950 }

/-- The third try of an exchange with column 1, which has been silent twice. -/
def lastTry : State :=
  { awaitingWall 3 with
    columns := wallColumns.set 0 { activeColumn with silence := 2 }, ops := [urgentOp, { routineOp with inFlight := true }] }

theorem witness_thirdSilence :
    lastTry.held = false ∧ lastTry.exchange = some (panelExchange .awaiting 3) ∧ lastTry.columnRx = .hunting
      ∧ lastTry.opOf 3 = some { routineOp with inFlight := true } ∧ 2 ≤ (lastTry.column 0).silence
      ∧ (lastTry.column 0).state.reachable = true ∧ lastTry.QueueLaw
      ∧ (∀ n, (awaitingWall n).FrameEndsTry (panelExchange .awaiting n) 0 (.characterError .column (broken 1006814))
          1007000)
      ∧ closingWall.FrameEndsTry (panelExchange .closing 2) 0 (.characterGapTimeout .column []) 1007950 := by
  refine ⟨rfl, rfl, rfl, rfl, by decide, by decide, ?_, fun n => (brokenAtClose n).1,
    ⟨[], .inr ⟨rfl, rfl, rfl, rfl, rfl⟩, .inr (.inr ⟨rfl, _, _, rfl, rfl⟩)⟩⟩
  unfold State.QueueLaw
  decide +kernel

/-- The column is LOST, its notice queued, and then the operation's mode takes SILENT (09 section 9.8). -/
theorem test_thirdSilence :
    let t := after (exec .tryTimeout lastTry)
    (t.column 0).state = .lost ∧ t.notices = [.columnState 0 .lost] ∧ t.ops = [urgentOp]
      ∧ t.sending = some ⟨(Frame.mk 13#4 1#4 0x90#8 [0x4E#8]).chars, false⟩ := by decide +kernel

theorem witness_TriesEndAndAreRepeated :
    (∀ n, (awaitingWall n).held = false ∧ (awaitingWall n).exchange = some (panelExchange .awaiting n)
        ∧ (panelExchange .awaiting n).dest = .column 0 ∧ (panelExchange .awaiting n).stage = .awaiting
        ∧ (awaitingWall n).columnRx = .hunting ∧ (panelExchange .awaiting n).abandoned = false
        ∧ (awaitingWall n).Awaits (panelExchange .awaiting n) 0)
      ∧ (∀ bs, (panelExchange .awaiting 1).opensWith (stamp 86 1000000 (0xC3#8 :: bs))
          ∧ Carries (stamp 86 1000000 (0xC3#8 :: bs)) (0xC3#8 :: bs))
      ∧ Carries (stamp 86 1007100 (strayFrame.drop 3)) (strayFrame.drop 3)
      ∧ ({ awaitingWall 1 with columnRx := .assembling [0xC3#8] 0 } : State).columnRx ≠ .hunting
      ∧ (panelExchange .closing 2).stage = .closing
      ∧ (awaitingWall 3).opOf 3 = some routineOp ∧ ((awaitingWall 3).column 0).state.reachable = true
      ∧ ((awaitingWall 3).column 0).silence < 2
      ∧ (panelExchange (.retryFrom 1007000) 1).stage = .retryFrom 1007000
      ∧ Receiver.hunting.hear .column (stamp 86 1000000 strayFrame) = (.hunting, [.complete strayFrame])
      ∧ (panelExchange .awaiting 1).accepts 0 strayFrame = none
      ∧ heardBy .column 1000000 (stamp 86 1000000 strayFrame) < 999000 + 8000
      ∧ 999000 + 8000 ≤ heardBy .column 1000000 (stamp 86 1006999 strayFrame)
      ∧ closingWall.exchange = some (panelExchange .closing 2) ∧ closingWall.held = false
      ∧ closingWall.columnRx = .assembling (strayFrame.take 3) 1006950
      ∧ closingWall.columnRx.hear .column (stamp 86 1007100 (strayFrame.drop 3))
          = (.hunting, [.complete (strayFrame.take 3 ++ strayFrame.drop 3)])
      ∧ (panelExchange .closing 2).accepts 0 (strayFrame.take 3 ++ strayFrame.drop 3) = none := by
  refine ⟨fun n => ⟨rfl, rfl, rfl, rfl, rfl, rfl, awaits n⟩,
    fun bs => ⟨⟨_, _, rfl, rfl, by decide, by decide⟩, carries_stamp 86 1000000 (0xC3#8 :: bs)⟩,
    carries_stamp 86 1007100 (strayFrame.drop 3), ?_⟩
  decide +kernel

theorem test_tryTimeout :
    ((after (exec .tryTimeout (awaitingWall 2))).exchange.map Exchange.stage) = some (.retryFrom 1007000)
      ∧ (after (exec .tryTimeout (awaitingWall 3))).counters.silent = 1
      ∧ ({ awaitingWall 1 with now := 998999 } : State).driverEnable = true
      ∧ ({ awaitingWall 1 with now := 999000 } : State).driverEnable = false := by decide +kernel

theorem test_retry :
    ((after (exec .retry (after (exec .tryTimeout (awaitingWall 2))))).exchange.map Exchange.tryNo) = some 3 := by
  decide +kernel

theorem test_columnFrameCorrupt :
    (after (exec (.columnFrameCorrupt (stamp 86 1000000 strayFrame)) (awaitingWall 1))).counters.columnDiscarded = 1
      ∧ (after (exec (.columnFrameCorrupt (stamp 86 1007100 (strayFrame.drop 3))) closingWall)).exchange
          = some (panelExchange (.retryFrom 1007444) 2) := by decide +kernel

/-- Flags TAKEN and MET. -/
def takenFlags : Flags := ⟨true, true, false⟩

/-- The reply to the pass-through request. -/
def passReply : List Byte := ((panelExchange .awaiting 1).replyFrame 0 [1#8, 7#8]).chars

theorem witness_GoodReplyEndsTheExchange :
    (awaitingWall 1).Awaits (panelExchange .awaiting 1) 0 ∧ longFrame.body.length ≤ 48
      ∧ (panelExchange .awaiting 1).opensWith (stamp 86 1006999 passReply)
      ∧ Carries (stamp 86 1006999 passReply) passReply ∧ Carries (stamp 86 1007100 (passReply.drop 3)) (passReply.drop 3)
      ∧ gapsWithin .column (stamp 86 1006999 passReply) = true
      ∧ (∀ ch ∈ stamp 86 999113 [0xC3#8], ch.start < 999000 + 200 ∨ 999000 + 8000 ≤ ch.start)
      ∧ (∀ ch ∈ stamp 86 1007000 passReply, ch.start < 999000 + 200 ∨ 999000 + 8000 ≤ ch.start)
      ∧ (panelExchange .awaiting 1).abandoned = false ∧ bodyFlags [1#8, 7#8] = some ⟨true, false, false⟩
      ∧ minReply (panelExchange .awaiting 1).kind ⟨true, false, false⟩ ≤ [1#8, (7#8 : Byte)].length
      ∧ (awaitingWall 1).opOf (panelExchange .awaiting 1).tag = some routineOp
      ∧ ({ closingWall with columnRx := .assembling (passReply.take 3) 1006950 } : State).columnRx.hear .column
          (stamp 86 1007100 (passReply.drop 3)) = (.hunting, [.complete passReply])
      ∧ passReply.take 3 ++ passReply.drop 3 = passReply := by
  refine ⟨awaits 1, by decide, ⟨_, _, rfl, rfl, by decide, by decide⟩, carries_stamp 86 1006999 passReply,
    carries_stamp 86 1007100 (passReply.drop 3), ?_⟩
  decide +kernel

/-- A reply begun at the last moment of its window is taken; one that begins as it opens too early or closes is
disregarded uncounted. -/
theorem test_columnReply :
    let t := after (exec (.columnReply (stamp 86 1006999 passReply)) (awaitingWall 1))
    t.exchange = none ∧ t.ops.map Op.tag = [2] ∧ (t.column 0).quiet = some (t.now + 10000)
      ∧ (∀ at_ ∈ [1007000, 998000], (after (exec (.columnReply (stamp 86 at_ passReply)) (awaitingWall 1))).exchange
          = some (panelExchange .awaiting 1)) := by decide +kernel

theorem witness_ModesJudgeTheReply :
    routineOp.mode = .once ∧ urgentOp.mode = .untilMet 6 0 ∧ (fetchOp 0).mode = .untilEmpty 0
      ∧ (passOp (.column 0) 0x10#8 (.counted 0) [2#8, 5#8, 6#8]).mode = .counted 0
      ∧ natAt (passOp (.column 0) 0x10#8 (.counted 0) [2#8, 5#8, 6#8]).body 0 1 = 2
      ∧ routineOp.mode.isWalk = false
      ∧ (initialWalk 0).mode = .walk ⟨[], 0, [1, 2, 3, 4, 5, 6, 7], 0, .initial⟩
      ∧ lockerCol 0 = 0 ∧ (1#8 : Byte).toNat = (lockerPos 0).val + 1 ∧ lockerCol 63 = 7
      ∧ (8#8 : Byte).toNat = (lockerPos 63).val + 1 ∧ 8 < (9#8 : Byte).toNat
      ∧ 0x10 ≤ (0x10#8 : Byte).toNat ∧ (0x3F#8 : Byte).toNat ≤ 0x3F ∧ (0x0F#8 : Byte).toNat ≤ 0x0F
      ∧ 0x40 ≤ (0x40#8 : Byte).toNat ∧ 1 < (2#8 : Byte).toNat
      ∧ (wall.locker 5).state = .purging (some 64200) ∧ ∀ t, (wall.locker 4).state ≠ .purging t := by
  and_intros <;> first | exact fun _ => LockerState.noConfusion | decide

/-- Events of FETCH replies: a purge done, a position out of range, FOREIGN, malformed, digits above 9. -/
theorem test_events :
    ((wall.handRaw 0 [0x07#8, 6#8, 0#8]).locker 5).state = .empty
      ∧ (wall.handRaw 0 [0x07#8, 6#8, 1#8]).notices = [.lockerFault 5 .purgeFail]
      ∧ (wall.handRaw 0 [0x08#8, 4#8]).notices = [.lockerFault 3 .sensor]
      ∧ (wall.handRaw 7 [0x3F#8, 9#8]).notices = [.columnEvent 7 [0x3F#8, 9#8]]
      ∧ (∀ raw ∈ [[0x04#8, 0#8, 0#8], [0x04#8, 9#8, 0#8], [0x04#8, 2#8, 2#8], [0x05#8, 2#8, 0#8], [0x0F#8], [0x40#8]],
          wall.handRaw 0 raw = wall)
      ∧ codeOf [0x09#8, 0x99#8, 0x99#8] = some 99999 ∧ codeOf [0xA0#8, 0#8, 0#8] = none := by decide +kernel

theorem witness_OutcomesReachTheirBlocks :
    urgentOp.dest = .column 1 ∧ urgentOp.position = some 0 ∧ urgentOp.origin = .collect ∧ urgentOp.slot = some 2
      ∧ (wall.locker (lockerAt 1 0)).state = .releasing 2 ⟨66900, 0⟩ ∧ wall.entry 2 = some slot2
      ∧ slot2.stage = .releasing 8 63300 none
      ∧ (unlatchOp 2 .back .load (some 5)).origin = .load ∧ (unlatchOp 2 .back .load (some 5)).slot = some 5
      ∧ (unlatching.locker (lockerAt 0 2)).state = .loading 5 .awaitLatch Door.none
      ∧ (unlatchOp 10 .back .clear none).origin = .clear
      ∧ (({ wall with lockers := wallLockers.set 10 (box (.clearing none .awaitLatch Door.none) .yes) } : State).locker
          (lockerAt 1 2)).state = .clearing none .awaitLatch Door.none
      ∧ (purgeOp 0x06#8 4).origin = .purge ∧ (purgeOp 0x06#8 4).kind = 0x06#8 ∧ (purgeOp 0x07#8 4).kind = 0x07#8
      ∧ (wall.locker (lockerAt 0 4)).state = .purgeWait ∧ (wall.locker (lockerAt 0 5)).state = .purging (some 64200)
      ∧ (wallAt 4294967295).court = some 4294967295 ∧ (heatOp 0 (.fill 8 0)).origin = .heat
      ∧ (heatOp 0 (.fill 8 0)).dest = .column 0 ∧ (wall.locker 3).state.meal = none
      ∧ (wall.locker 1).state.meal = some (1, ⟨67500, 0⟩) ∧ wall.entry 1 = some slot1
      ∧ slot1.stage = .ready 1 63900 ∧ wall.classes.get slot1.cls = some ⟨2, 800, 700, 3600, 300, 3⟩
      ∧ (wall.locker 19).state = .opened 4 ⟨67200, 0⟩ (openSince 5000)
      ∧ (wall.locker 8).state.meal = some (2, ⟨66900, 0⟩) ∧ (fetchOp 0).origin = .fetch := by decide +kernel

theorem witness_PassOutcomesAreAnswered :
    routineOp.origin = .pass ∧ routineOp.inboxRef = some ⟨0x10#8, 1#4⟩ ∧ routineOp.mode = .once
      ∧ routineOp.dest = .column 0 ∧ (passOp .all 0x10#8 .once []).dest = .all
      ∧ (passOp (.column 0) 0x10#8 (.counted 1) []).mode = .counted 1 ∧ wall.PortLaw ∧ routineOp ∈ wall.ops
      ∧ (restarting none).held = false ∧ (restarting none).sending = some ⟨[], true⟩ := by
  unfold State.PortLaw
  decide

/-- The wall while a broadcast, or a POLL, is on the line. -/
def broadcastWall (stage : ExStage) : State :=
  { wall with
    ops := [{ passOp .all 0x10#8 .once [] with tag := 3, inFlight := true }]
    exchange := some { panelExchange stage 1 with dest := .all } }

theorem witness_BroadcastsAndPollsEnd :
    (∀ g, (broadcastWall g).held = false
        ∧ (broadcastWall g).exchange = some { panelExchange g 1 with dest := .all }
        ∧ ({ panelExchange g 1 with dest := .all } : Exchange).abandoned = false
        ∧ ({ panelExchange g 1 with dest := .all } : Exchange).stage = g)
      ∧ (broadcastWall .broadcast).opOf 3
          = some { passOp .all 0x10#8 .once [] with tag := 3, inFlight := true }
      ∧ (passOp .all 0x10#8 .once []).origin = .pass ∧ (passOp .all 0x10#8 .once []).dest = .all
      ∧ (passOp .all 0x10#8 .once []).inboxRef = some ⟨0x10#8, 15#4⟩ := by
  refine ⟨fun _ => ⟨rfl, rfl, rfl, rfl⟩, rfl, rfl, rfl, rfl⟩

/-- CP_DE is low while the slots of a POLL run. -/
theorem test_driverEnable :
    (broadcastWall .slots).driverEnable = false
      ∧ ({ broadcastWall .slots with now := 998999 } : State).driverEnable = true := by decide

theorem test_broadcastSent :
    (after (exec .broadcastSent (broadcastWall .broadcast))).sending
        = some ⟨(Frame.mk 13#4 15#4 0x90#8 [0x40#8]).chars, false⟩
      ∧ (after (exec .broadcastSent (broadcastWall .broadcast))).ops = [] := by decide +kernel

/-- Column 1 answers as its slot opens, column 2 as its slot closes, column 3 with two characters, column 4 with a
character that is no answer, and one character comes after slot 8. -/
theorem test_pollEnd :
    let t := after (exec (.pollEnd [⟨999500, some 0x01#8⟩, ⟨1001499, some 0x80#8⟩, ⟨1001500, some 0x80#8⟩,
      ⟨1001600, none⟩, ⟨1002500, some 0x81#8⟩, ⟨1007500, some 0x80#8⟩]) (broadcastWall .slots))
    (t.column 0).attention = true ∧ t.ops.map Op.kind = [0x02#8] ∧ (t.column 1).silence = 0
      ∧ (t.column 2).state = .lost ∧ (t.column 3).silence = 1 ∧ t.counters.columnDiscarded = 3 := by decide +kernel

theorem test_filterEdges :
    filterIndex 0x0A#8 = none ∧ filterIndex 0x08#8 = none := by decide

end Sys2Proof.Tests
end

section
/-! The CRC of frames (07 R130): its register bit by bit, the two characters that carry it, and who sends and who
checks it. -/

namespace Sys2Proof.Machine

/-! ## The CRC register -/

/-- One data bit into the CRC register, as 07 R130 gives the generator x^16 + x^12 + x^5 + 1. -/
def crcBit (r : BitVec 16) (d : Bool) : BitVec 16 :=
  if r.msb = d then r <<< 1 else (r <<< 1) ^^^ 0x1021#16

/-- Data added to the register ahead of a shift enters it by its top bit; the rest of the data shifts along. -/
theorem crcShift_xor (r x : BitVec 16) : crcShift (r ^^^ x) = crcBit r x.msb ^^^ (x <<< 1) := by
  unfold crcShift crcBit
  rw [BitVec.msb_xor, BitVec.shiftLeft_xor_distrib]
  cases r.msb <;> cases x.msb <;> simp [BitVec.xor_assoc, BitVec.xor_comm (x <<< 1)]

/-- The bit that leads once `k` bits of a character in the register's high byte are shifted out. -/
theorem msb_shifted_byte (b : Byte) {k : Nat} (h : k < 8) :
    (b.zeroExtend 16 <<< (8 + k)).msb = b.getLsbD (7 - k) := by
  have inWord : ¬15 < 8 + k := by omega
  have inByte : 15 - (8 + k) = 7 - k := by omega
  simp [BitVec.msb_eq_getLsbD_last, inWord, inByte]

/-- A character added to the high byte and shifted eight times enters bit by bit, most significant bit first. -/
theorem crcByte_eq_foldl_crcBit (r : BitVec 16) (b : Byte) :
    crcByte r b = [7, 6, 5, 4, 3, 2, 1, 0].foldl (fun r k => crcBit r (b.getLsbD k)) r := by
  have shift (q : BitVec 16) {k : Nat} (h : k < 8) :
      crcShift (q ^^^ b.zeroExtend 16 <<< (8 + k))
        = crcBit q (b.getLsbD (7 - k)) ^^^ b.zeroExtend 16 <<< (8 + (k + 1)) := by
    rw [crcShift_xor, msb_shifted_byte b h, ← BitVec.shiftLeft_add, Nat.add_assoc]
  have shiftedOut : b.zeroExtend 16 <<< (8 + 8) = 0#16 := BitVec.shiftLeft_eq_zero (by decide)
  unfold crcByte
  rw [shift r (k := 0) (by decide), shift _ (by decide), shift _ (by decide),
    shift _ (by decide), shift _ (by decide), shift _ (by decide), shift _ (by decide), shift _ (by decide),
    shiftedOut, BitVec.xor_zero]
  rfl

/-- The CRC takes its characters one after the other. -/
theorem crc_append_singleton (bs : List Byte) (b : Byte) : crc (bs ++ [b]) = crcByte (crc bs) b := by
  simp [crc]

/-! ## The two CRC characters -/

/-- A 16-bit number goes out as its high byte, then its low byte. -/
theorem beBytes_two_toNat (v : BitVec 16) :
    beBytes 2 v.toNat = [v.extractLsb' 8 8, v.extractLsb' 0 8] := by
  simp [beBytes, BitVec.extractLsb', Nat.shiftRight_eq_div_pow]

/-- Two characters spell the number whose high byte is the first of them. -/
theorem beNat_pair (hi lo : Byte) : beNat [hi, lo] = (hi ++ lo).toNat := by
  rw [BitVec.toNat_append, ← Nat.shiftLeft_add_eq_or_of_lt lo.isLt, Nat.shiftLeft_eq]
  simp [beNat]

/-- A frame's characters: the start mark, what the CRC covers, and the CRC high byte first. -/
theorem Frame.chars_eq (f : Frame) :
    f.chars = startMark :: (f.covered
      ++ [(crc f.covered).extractLsb' 8 8, (crc f.covered).extractLsb' 0 8]) := by
  rw [Frame.chars, beBytes_two_toNat]

/-- A received frame is good exactly when the CRC over address, kind, length and body is the one it carries: the
length character says where the body ends and the two CRC characters begin. -/
theorem crcGood_iff (mark address kind len hi lo : Byte) {body : List Byte} (hlen : body.length = len.toNat) :
    crcGood (mark :: address :: kind :: len :: (body ++ [hi, lo])) = true ↔
      crc (address :: kind :: len :: body) = hi ++ lo := by
  have length : beNat [len] = body.length := by simp [beNat, hlen]
  simp [crcGood, natAt, fieldAt, length, beNat_pair, BitVec.toNat_inj]

/-! ## Frames sent -/

/-- A GAP notice queued behind a leaving notice leaves the transmitter alone. -/
theorem State.fillGap_sending (s : State) : s.fillGap.sending = s.sending := by
  unfold State.fillGap
  split <;> rfl

/-- What the idle transmitter starts on the server port is a frame with its CRC: a reply's or a notice's. -/
theorem State.transmit_sends_frame {s : State} {f : Sending} (idle : s.sending = none)
    (h : s.transmit.sending = some f) : ∃ g : Frame, f.chars = g.chars := by
  cases hr : s.replies with
  | cons r rest =>
    simp only [State.transmit, idle, hr, Option.isSome_none, Bool.false_eq_true, if_false] at h
    exact ⟨r.frame, by cases h; rfl⟩
  | nil =>
    cases hn : s.notices with
    | cons n rest =>
      simp only [State.transmit, idle, hr, hn, Option.isSome_none, Bool.false_eq_true, if_false,
        State.fillGap_sending] at h
      exact ⟨n.frame, by cases h; rfl⟩
    | nil => simp [State.transmit, idle, hr, hn] at h

/-- An operation of mode ONCE sends its own body. -/
theorem Op.requestBody_once {op : Op} (h : op.mode = .once) : op.requestBody = op.body := by
  simp [Op.requestBody, h]

/-- What an exchange sends on the column line is the frame of its operation's request. -/
theorem State.startExchange_sends_request (s : State) (op : Op) :
    ∃ x : Exchange, (s.startExchange op).exchange = some x ∧ x.request = op.request.chars :=
  ⟨_, rfl, rfl⟩

/-! ## Frames discarded -/

/-- The server port discards and counts a frame whose CRC is bad. -/
theorem State.judgeServerFrame_bad_crc {chars : List Byte} (h : crcGood chars = false) (s : State) :
    s.judgeServerFrame chars = s.countServerDiscard := by
  simp [State.judgeServerFrame, h]

/-- No exchange accepts a frame whose CRC is bad as its reply. -/
theorem Exchange.accepts_bad_crc {chars : List Byte} (h : crcGood chars = false) (x : Exchange) (c : Col) :
    x.accepts c chars = none := by
  simp only [Exchange.accepts, h]
  split <;> simp

/-! ## The obligation -/

/-- Settles O16: the register bit by bit from `crcByte_eq_foldl_crcBit`, the characters sent and received from
`Frame.chars_eq` and `crcGood_iff`, and each port by what it sends and what it discards. -/
theorem crcChecksEveryFrame : Obligations.CrcChecksEveryFrame := by
  refine ⟨rfl, fun bs b => ?bits, Frame.chars_eq, ?checkValue, ?good, ?serverSends, ?columnSends, ?discards⟩
  case bits => rw [crc_append_singleton]; exact crcByte_eq_foldl_crcBit _ _
  case checkValue => decide +kernel
  case good => exact fun mark address kind len hi lo _ hlen => crcGood_iff mark address kind len hi lo hlen
  case serverSends => exact fun _ _ => State.transmit_sends_frame
  case columnSends =>
    intro s op
    obtain ⟨x, started, request⟩ := s.startExchange_sends_request op
    exact ⟨x, op.request, started, request, rfl, Op.requestBody_once⟩
  case discards =>
    exact fun _ h => ⟨State.judgeServerFrame_bad_crc h, Exchange.accepts_bad_crc h⟩

end Sys2Proof.Machine
end

section
/-! The replies to PASS operations (11 R203, Table 11-5): the one that each outcome places, the entry that is free
for it, and none after a RESTART (07 R145, 11 R208). -/

namespace Sys2Proof.Machine

/-! ## The count done -/

/-- A COUNTED operation reports its count done as one byte. -/
@[simp] theorem Mode.countData_counted (n : Nat) : (Mode.counted n).countData = [BitVec.ofNat 8 n] := by
  simp [Mode.countData, u8, beBytes]

/-- An operation of mode ONCE reports no count. -/
@[simp] theorem Mode.countData_once : Mode.once.countData = [] := rfl

/-! ## The reply to each outcome -/

/-- A composed reply goes to the tail of the queue with the request's kind marked, from the request's destination,
and nothing else changes. -/
theorem State.passAnswer_eq (s : State) (ref : InboxRef) (st : Status) (data : List Byte) :
    s.passAnswer ref st data =
      { s with replies := s.replies ++ [⟨ref.kind ||| 0x80#8, ref.dest, st.code :: data, false⟩] } := rfl

section
variable {op : Op} {ref : InboxRef} (hpass : op.origin = .pass) (href : op.inboxRef = some ref)
include hpass href

/-- A broadcast that has been sent is answered OK without data. -/
theorem State.deliver_pass_sent (hdest : op.dest = .all) (s : State) (met : Bool) (kind : Byte)
    (body : List Byte) : s.deliver op (.done met kind body) = s.passAnswer ref .ok [] := by
  simp [State.deliver, State.passOutcome, hpass, href, hdest]

/-- The reply of one column is forwarded. -/
theorem State.deliver_pass_replied {c : Col} (hdest : op.dest = .column c) (s : State) (met : Bool) (kind : Byte)
    (body : List Byte) :
    s.deliver op (.done met kind body) = s.placeReply ⟨kind, ref.dest, forwardBody body, false⟩ := by
  simp [State.deliver, State.passOutcome, hpass, href, hdest]

/-- FAILED is answered with the count done. -/
theorem State.deliver_pass_failed (s : State) :
    s.deliver op .failed = s.passAnswer ref .failed op.mode.countData := by
  simp [State.deliver, State.passOutcome, hpass, href]

/-- SILENT is answered NO-REPLY with the count done. -/
theorem State.deliver_pass_silent (s : State) :
    s.deliver op .silent = s.passAnswer ref .noReply op.mode.countData := by
  simp [State.deliver, State.passOutcome, hpass, href]

/-- CANCELLED is answered UNREACHABLE with the count done. -/
theorem State.deliver_pass_cancelled (s : State) :
    s.deliver op .cancelled = s.passAnswer ref .unreachable op.mode.countData := by
  simp [State.deliver, State.passOutcome, hpass, href]

end

/-! ## The entry kept free -/

/-- A PASS operation in the queue is outstanding. -/
theorem State.passOutstanding_pos {s : State} {op : Op} (hop : op ∈ s.ops) (hpass : op.origin = .pass) :
    0 < s.passOutstanding :=
  List.countP_pos_iff.mpr ⟨op, hop, by simp [hpass]⟩

/-- The port law keeps a reply entry free for a PASS operation in the queue. -/
theorem State.PortLaw.replies_lt {s : State} {op : Op} (law : s.PortLaw) (hop : op ∈ s.ops)
    (hpass : op.origin = .pass) : s.replies.length < 8 := by
  obtain ⟨_, _, room, _⟩ := law
  have outstanding := State.passOutstanding_pos hop hpass
  omega

/-! ## None after a RESTART -/

/-- With both queues empty the transmitter starts nothing. -/
theorem State.transmit_of_empty {s : State} (hr : s.replies = []) (hn : s.notices = []) : s.transmit = s := by
  simp [State.transmit, hr, hn]

/-- The end of the RESTART reply leaves the state that the RESTART brings: its queues are empty, so the transmitter
stays idle. -/
theorem exec_restartTakesEffect {s : State} {f : Sending} (running : s.held = false) (sending : s.sending = some f)
    (restart : f.restart = true) : exec .restartTakesEffect s = .next s.restartEffect := by
  have effect : s.restartTakesEffect = s.restartEffect := by
    simp [State.restartTakesEffect, sending, restart]
  calc exec .restartTakesEffect s
      = .next s.restartTakesEffect.transmit := event_running running State.restartTakesEffect
    _ = .next s.restartEffect.transmit := by rw [effect]
    _ = .next s.restartEffect := by rw [State.transmit_of_empty rfl rfl]

/-- A RESTART leaves the initial walk as the only operation, so no PASS operation. -/
theorem State.restartEffect_no_pass (s : State) : ∀ op ∈ s.restartEffect.ops, op.origin ≠ .pass := by
  intro op hop
  have walk : op = initialWalk s.abandon.now := List.mem_singleton.mp hop
  rw [walk]
  exact Origin.noConfusion

/-! ## The obligation -/

/-- Settles O59: the replies by the outcome from the `deliver_pass` lemmas, the free entry from
`State.PortLaw.replies_lt`, and a RESTART's silence from `exec_restartTakesEffect`. -/
theorem passOutcomesAreAnswered : Obligations.PassOutcomesAreAnswered := by
  refine ⟨?answered, fun _ _ law => law.replies_lt, ?restarted⟩
  case answered =>
    intro s op ref met flags rest hpass href hmode placed count
    have counted : op.mode.countData = count := by
      obtain once | ⟨n, counted⟩ := hmode
      · simp [count, once]
      · simp [count, counted]
    refine ⟨fun sent => ?sent, fun c replied => ?replied, ?failed, ?silent, ?cancelled⟩
    case sent => exact (State.deliver_pass_sent hpass href sent s ..).trans (s.passAnswer_eq ..)
    case replied => exact State.deliver_pass_replied hpass href replied s ..
    case failed => rw [← counted]; exact (State.deliver_pass_failed hpass href s).trans (s.passAnswer_eq ..)
    case silent => rw [← counted]; exact (State.deliver_pass_silent hpass href s).trans (s.passAnswer_eq ..)
    case cancelled => rw [← counted]; exact (State.deliver_pass_cancelled hpass href s).trans (s.passAnswer_eq ..)
  case restarted =>
    intro s f running sending restart
    exact ⟨_, exec_restartTakesEffect running sending restart, rfl, s.restartEffect_no_pass⟩

end Sys2Proof.Machine
end

section
/-! The laws of the state kept by single writes: each law under the laws it is stated with, for one write of a table or
of a queue. Blocks keep the laws because they are made of these writes. -/

-- The declarations are elaborated one after another, which bounds the memory that their checks take at one time.
set_option Elab.async false

namespace Sys2Proof.Machine

open Config

/-- The laws kept on the way from one state to another, each under the laws its own statement assumes: all but the
budget law, which the heat period breaks and restores within one event. -/
structure State.KeepsButBudget (s t : State) : Prop where
  keys : s.UniqueKeys → t.UniqueKeys
  binding : s.BindingLaw → t.BindingLaw
  close : s.BindingLaw → s.CloseLimited → t.CloseLimited
  queue : s.QueueLaw → t.QueueLaw
  door : s.QueueLaw → s.DoorLaw → t.DoorLaw
  port : s.QueueLaw → s.PortLaw → t.PortLaw
  mode : s.ModeLaw → t.ModeLaw
  pass : s.PassLaw → t.PassLaw
  range : s.RangeLaw → t.RangeLaw

/-- All ten laws kept on the way from one state to another. -/
structure State.KeepsLaws (s t : State) : Prop extends s.KeepsButBudget t where
  budget : s.BudgetLaw → t.BudgetLaw

theorem State.KeepsLaws.refl (s : State) : s.KeepsLaws s :=
  ⟨⟨id, id, fun _ => id, id, fun _ => id, fun _ => id, id, id, id⟩, id⟩

theorem State.KeepsButBudget.trans {s t u : State} (h : s.KeepsButBudget t) (k : t.KeepsButBudget u) :
    s.KeepsButBudget u where
  keys := k.keys ∘ h.keys
  binding := k.binding ∘ h.binding
  close hb hc := k.close (h.binding hb) (h.close hb hc)
  queue := k.queue ∘ h.queue
  door hq hd := k.door (h.queue hq) (h.door hq hd)
  port hq hp := k.port (h.queue hq) (h.port hq hp)
  mode := k.mode ∘ h.mode
  pass := k.pass ∘ h.pass
  range := k.range ∘ h.range

theorem State.KeepsLaws.trans {s t u : State} (h : s.KeepsLaws t) (k : t.KeepsLaws u) : s.KeepsLaws u :=
  ⟨h.toKeepsButBudget.trans k.toKeepsButBudget, k.budget ∘ h.budget⟩

/-- A run of steps over a list keeps the laws when each step does. -/
theorem State.foldl_keeps {α : Type} {f : State → α → State} (h : ∀ (s : State) a, s.KeepsLaws (f s a)) (s : State)
    (as : List α) : s.KeepsLaws (as.foldl f s) := by
  induction as generalizing s with
  | nil => exact .refl s
  | cons a as ih => exact (h s a).trans (ih (f s a))

/-! ## Locker states and entry stages that belong together (02 R32) -/

/-- A stage that fits a locker's state names that locker. -/
theorem LockerState.fits_locker {st : LockerState} {l : LockerId} {g : Stage} (h : st.fits l g) :
    g.locker = some l := by
  cases st <;> cases g <;> simp_all [LockerState.fits, Stage.locker]

/-- A state that a stage fits names a slot. -/
theorem LockerState.fits_slot {st : LockerState} {l : LockerId} {g : Stage} (h : st.fits l g) :
    ∃ i, st.slot = some i := by
  cases st <;> cases g <;> simp_all [LockerState.fits, LockerState.slot]

/-- A locker with a held meal names the meal's slot. -/
theorem LockerState.slot_of_meal {st : LockerState} {i : Slot} {m : Meal} (h : st.meal = some (i, m)) :
    st.slot = some i := by
  cases st <;> simp_all [LockerState.meal, LockerState.slot]

/-- A locker that names no slot holds no meal. -/
theorem LockerState.meal_of_slot_none {st : LockerState} (h : st.slot = none) : st.meal = none := by
  cases st <;> simp_all [LockerState.meal, LockerState.slot]

/-- The second state stands for the same bound entry as the first, its hold deadline unchanged. -/
structure LockerState.SameHold (a b : LockerState) : Prop where
  slot : b.slot = a.slot
  fits : ∀ l g, a.fits l g → b.fits l g
  meal : ∀ i m, b.meal = some (i, m) → ∃ m', a.meal = some (i, m') ∧ m'.deadline = m.deadline

theorem LockerState.SameHold.refl (a : LockerState) : a.SameHold a := ⟨rfl, fun _ _ => id, fun _ m h => ⟨m, h, rfl⟩⟩

/-- Two states that name no slot stand for no entry both. -/
theorem LockerState.SameHold.unbound {a b : LockerState} (ha : a.slot = none) (hb : b.slot = none) :
    a.SameHold b where
  slot := hb.trans ha.symm
  fits l g h := by
    obtain ⟨i, hi⟩ := fits_slot h
    rw [ha] at hi; cases hi
  meal i m h := by rw [meal_of_slot_none hb] at h; cases h

/-- No UNLATCH stands against the side in use of the state that locker `l` is to enter (02 R30). -/
def State.DoorAllows (s : State) (l : LockerId) (st : LockerState) : Prop :=
  st.sideInUse = none ∨ st.sideInUse = (s.locker l).state.sideInUse ∨ s.doorBusy l = false

/-- With no door operation outstanding no UNLATCH of the locker is in the queue. -/
theorem State.doorBusy_false {s : State} {l : LockerId} :
    s.doorBusy l = false ↔ ∀ op ∈ s.ops, op.isUnlatch l = false := by
  simp [State.doorBusy]

/-! ## Writes of lockers -/

/-- A door law stands when a locker enters a state that its door allows. -/
theorem State.DoorLaw.setLocker {s : State} {l : LockerId} {v : Locker} (h : s.DoorLaw)
    (door : s.DoorAllows l v.state) : (s.setLocker l v).DoorLaw := by
  intro k
  obtain ⟨one, side⟩ := h k
  refine ⟨one, fun op hop hu g hg => ?_⟩
  rw [State.locker_setLocker] at hg
  split at hg
  case isFalse => exact side op hop hu g hg
  case isTrue hk =>
    subst hk
    rcases door with none | same | free
    · rw [none] at hg; cases hg
    · exact side op hop hu g (same ▸ hg)
    · rw [State.doorBusy_false.mp free op hop] at hu; cases hu

/-- Lockers stay in range when one record in range is written. -/
theorem State.RangeLaw.setLocker {s : State} {l : LockerId} {v : Locker} (h : s.RangeLaw) (hv : v.inRange) :
    (s.setLocker l v).RangeLaw := by
  obtain ⟨cols, lks, rest⟩ := h
  refine ⟨cols, fun k => ?_, rest⟩
  rw [State.locker_setLocker]
  split
  · exact hv
  · exact lks k

/-- A locker record written for the same bound entry keeps the laws. -/
theorem State.setLocker_keeps {s : State} {l : LockerId} {v : Locker}
    (hold : (s.locker l).state.SameHold v.state) (door : s.DoorAllows l v.state)
    (range : s.RangeLaw → v.inRange) : s.KeepsLaws (s.setLocker l v) where
  keys := id
  binding hb := by
    obtain ⟨names, named⟩ := hb
    refine ⟨fun k i hi => ?_, fun i r k hi hk => ?_⟩
    · rw [State.locker_setLocker] at hi ⊢
      split at hi
      · next hk =>
        subst hk
        rw [if_pos rfl]
        obtain ⟨r, hr, hf⟩ := names l i (hold.slot ▸ hi)
        exact ⟨r, hr, hold.fits l _ hf⟩
      · next hk => rw [if_neg hk]; exact names k i hi
    · rw [State.locker_setLocker]
      split
      · next hlk => subst hlk; rw [hold.slot]; exact named i r l hi hk
      · exact named i r k hi hk
  close _ hc := by
    intro k i m r hm hr
    rw [State.locker_setLocker] at hm
    split at hm
    · next hk =>
      subst hk
      obtain ⟨m', hm', hd⟩ := hold.meal i m hm
      exact hd ▸ hc l i m' r hm' hr
    · exact hc k i m r hm hr
  queue := id
  door _ hd := hd.setLocker door
  port _ := id
  budget := id
  mode := id
  pass := id
  range hr := hr.setLocker (range hr)

/-- A record of a locker out of use enters a state that names no slot and no side. -/
theorem State.setLocker_unbound_keeps {s : State} {l : LockerId} {v : Locker}
    (old : (s.locker l).state.slot = none) (new : v.state.slot = none) (side : v.state.sideInUse = none)
    (range : s.RangeLaw → v.inRange) : s.KeepsLaws (s.setLocker l v) :=
  State.setLocker_keeps (.unbound old new) (.inl side) range

/-- A locker record changes in other fields than its state. -/
theorem State.setLocker_state_keeps {s : State} {l : LockerId} {v : Locker}
    (state : v.state = (s.locker l).state) (range : s.RangeLaw → v.inRange) :
    s.KeepsLaws (s.setLocker l v) :=
  State.setLocker_keeps (state ▸ .refl _) (.inr (.inl (by rw [state]))) range

/-- The state entered is the state of the record. -/
@[simp] theorem Locker.enter_state (lk : Locker) (st : LockerState) : (lk.enter st).state = st := by
  cases st <;> rfl

/-- A locker that enters a state stays in range. -/
theorem Locker.inRange.enter {lk : Locker} (h : lk.inRange) (st : LockerState) : (lk.enter st).inRange := by
  obtain ⟨rating, demand, refusals⟩ := h
  cases st <;> simp [Locker.enter, Locker.inRange, rating, demand, refusals]

/-- The records of a state in range are in range. -/
theorem State.RangeLaw.locker {s : State} (h : s.RangeLaw) (l : LockerId) : (s.locker l).inRange := h.2.1 l

/-- A locker enters a state that stands for the same bound entry. -/
theorem State.enterLocker_keeps {s : State} {l : LockerId} {st : LockerState}
    (hold : (s.locker l).state.SameHold st) (door : s.DoorAllows l st) : s.KeepsLaws (s.enterLocker l st) :=
  State.setLocker_keeps (by simpa using hold) (by simpa using door) fun h => (h.locker l).enter st

/-- A locker that names no slot enters another such state without a side in use. -/
theorem State.enterLocker_unbound_keeps {s : State} {l : LockerId} {st : LockerState}
    (old : (s.locker l).state.slot = none) (new : st.slot = none) (side : st.sideInUse = none) :
    s.KeepsLaws (s.enterLocker l st) :=
  State.enterLocker_keeps (.unbound old new) (.inl side)

/-! ## Writes of entries -/

/-- Entries stay distinct when one is written whose keys no other entry has. -/
theorem State.UniqueKeys.setEntry {s : State} {i : Slot} {e : Option Reservation} (h : s.UniqueKeys)
    (keys : ∀ q, e = some q → ∀ j r, j ≠ i → s.entry j = some r → r.tag ≠ q.tag ∧ r.code ≠ q.code) :
    (s.setEntry i e).UniqueKeys := by
  intro a b r q ha hb same
  rw [State.entry_setEntry] at ha hb
  split at ha <;> split at hb
  · next h1 h2 => exact h1.symm.trans h2
  · next h1 h2 =>
    obtain ⟨ht, hc⟩ := keys r ha b q (Ne.symm h2) hb
    rcases same with same | same
    · exact absurd same.symm ht
    · exact absurd same.symm hc
  · next h1 h2 =>
    obtain ⟨ht, hc⟩ := keys q hb a r (Ne.symm h1) ha
    rcases same with same | same
    · exact absurd same ht
    · exact absurd same hc
  · exact h a b r q ha hb same

/-- An entry written over one with the same keys is distinct from the others. -/
theorem State.UniqueKeys.others {s : State} (h : s.UniqueKeys) {i : Slot} {r q : Reservation}
    (hr : s.entry i = some r) (tag : q.tag = r.tag) (code : q.code = r.code) :
    ∀ j p, j ≠ i → s.entry j = some p → p.tag ≠ q.tag ∧ p.code ≠ q.code := by
  intro j p hj hp
  exact ⟨fun ht => hj (h j i p r hp hr (.inl (ht.trans tag))),
    fun hc => hj (h j i p r hp hr (.inr (hc.trans code)))⟩

/-- Entries stay in range when one in range is written. -/
theorem State.RangeLaw.setEntry {s : State} {i : Slot} {e : Option Reservation} (h : s.RangeLaw)
    (he : ∀ q, e = some q → q.inRange) : (s.setEntry i e).RangeLaw := by
  obtain ⟨cols, lks, ents, rest⟩ := h
  refine ⟨cols, lks, fun j q hq => ?_, rest⟩
  rw [State.entry_setEntry] at hq
  split at hq
  · exact he q hq
  · exact ents j q hq

/-- The entries of a state in range are in range. -/
theorem State.RangeLaw.entry {s : State} (h : s.RangeLaw) {i : Slot} {r : Reservation}
    (hr : s.entry i = some r) : r.inRange := h.2.2.1 i r hr

/-- A slot whose entry is unbound is written with an unbound entry, or made FREE. -/
theorem State.setEntry_unbound_keeps {s : State} {i : Slot} {e : Option Reservation}
    (old : ∀ r, s.entry i = some r → r.stage.locker = none)
    (new : ∀ q, e = some q → q.stage.locker = none)
    (keys : s.UniqueKeys → ∀ q, e = some q → ∀ j r, j ≠ i → s.entry j = some r → r.tag ≠ q.tag ∧ r.code ≠ q.code)
    (range : s.RangeLaw → ∀ q, e = some q → q.inRange) : s.KeepsLaws (s.setEntry i e) where
  keys hk := hk.setEntry (keys hk)
  binding hb := by
    obtain ⟨names, named⟩ := hb
    refine ⟨fun l j hj => ?_, fun j q l hq hl => ?_⟩
    · obtain ⟨r, hr, hf⟩ := names l j hj
      have hij : i ≠ j := by
        rintro rfl
        have := old r hr
        rw [LockerState.fits_locker hf] at this; cases this
      exact ⟨r, by rw [State.entry_setEntry, if_neg hij]; exact hr, hf⟩
    · rw [State.entry_setEntry] at hq
      split at hq
      · rw [new q hq] at hl; cases hl
      · exact named j q l hq hl
  close hb hc := by
    intro l j m q hm hq
    rw [State.entry_setEntry] at hq
    split at hq
    · next hij =>
      subst hij
      obtain ⟨r, hr, hf⟩ := hb.1 l i (LockerState.slot_of_meal hm)
      have := old r hr
      rw [LockerState.fits_locker hf] at this; cases this
    · exact hc l j m q hm hq
  queue := id
  door _ := id
  port _ := id
  budget := id
  mode := id
  pass := id
  range hr := hr.setEntry (range hr)

/-- An entry changes while it stays in the same kind of stage at the same locker. -/
theorem State.setEntry_keeps {s : State} {i : Slot} {r q : Reservation} (hr : s.entry i = some r)
    (tag : q.tag = r.tag) (code : q.code = r.code) (locker : q.stage.locker = r.stage.locker)
    (fits : ∀ (st : LockerState) l, st.fits l r.stage → st.fits l q.stage)
    (close : ∀ l m, r.stage.locker = some l → (s.locker l).state.meal = some (i, m) →
      (s.locker l).state.fits l r.stage → r.closes ≤ m.deadline → q.closes ≤ m.deadline)
    (range : s.RangeLaw → q.inRange) : s.KeepsLaws (s.setEntry i (some q)) where
  keys hk := hk.setEntry (by rintro _ ⟨⟩; exact hk.others hr tag code)
  binding hb := by
    obtain ⟨names, named⟩ := hb
    refine ⟨fun l j hj => ?_, fun j p l hp hl => ?_⟩
    · obtain ⟨p, hp, hf⟩ := names l j hj
      rw [State.entry_setEntry]
      split
      · next hij =>
        subst hij
        rw [hr] at hp; cases hp
        exact ⟨q, rfl, fits _ _ hf⟩
      · exact ⟨p, hp, hf⟩
    · rw [State.entry_setEntry] at hp
      split at hp
      · next hij => subst hij; cases hp; exact named i r l hr (locker ▸ hl)
      · exact named j p l hp hl
  close hb hc := by
    intro l j m p hm hp
    rw [State.entry_setEntry] at hp
    split at hp
    · next hij =>
      subst hij; cases hp
      obtain ⟨r', hr', hf⟩ := hb.1 l i (LockerState.slot_of_meal hm)
      rw [hr] at hr'; cases hr'
      exact close l m (LockerState.fits_locker hf) hm hf (hc l i m r hm hr)
    · exact hc l j m p hm hp
  queue := id
  door _ := id
  port _ := id
  budget := id
  mode := id
  pass := id
  range hk := hk.setEntry (by rintro _ ⟨⟩; exact range hk)

/-! ## Writes of a locker and of its entry together -/

/-- Locker `l` and slot `i` name each other or nothing: no other pair is touched when both are written. -/
def State.Footprint (s : State) (l : LockerId) (i : Slot) : Prop :=
  (∀ j, (s.locker l).state.slot = some j → j = i)
    ∧ ∀ r k, s.entry i = some r → r.stage.locker = some k → k = l

/-- An entry that names a locker is a footprint with it. -/
theorem State.BindingLaw.footprint {s : State} (h : s.BindingLaw) {i : Slot} {r : Reservation} {l : LockerId}
    (hr : s.entry i = some r) (hl : r.stage.locker = some l) : s.Footprint l i := by
  refine ⟨fun j hj => ?_, fun q k hq hk => ?_⟩
  · rw [h.2 i r l hr hl] at hj; exact (Option.some.inj hj).symm
  · rw [hr] at hq; cases hq; rw [hl] at hk; exact (Option.some.inj hk).symm

/-- A locker that names a slot is a footprint with it. -/
theorem State.BindingLaw.footprint_of_slot {s : State} (h : s.BindingLaw) {i : Slot} {l : LockerId}
    (hi : (s.locker l).state.slot = some i) : s.Footprint l i := by
  obtain ⟨r, hr, hf⟩ := h.1 l i hi
  exact h.footprint hr (LockerState.fits_locker hf)

/-- What a locker record and an entry are to each other once both are written: unbound both, or bound to each
other. -/
def Coherent (l : LockerId) (st : LockerState) (i : Slot) (e : Option Reservation) : Prop :=
  (st.slot = none ∧ ∀ q, e = some q → q.stage.locker = none)
    ∨ (st.slot = some i ∧ ∃ q, e = some q ∧ st.fits l q.stage)

/-- A locker and its entry are written together. -/
theorem State.pair_keeps {s : State} {l : LockerId} {v : Locker} {i : Slot} {e : Option Reservation}
    (footprint : s.BindingLaw → s.Footprint l i) (coherent : s.BindingLaw → Coherent l v.state i e)
    (keys : s.UniqueKeys → ∀ q, e = some q → ∀ j r, j ≠ i → s.entry j = some r → r.tag ≠ q.tag ∧ r.code ≠ q.code)
    (close : s.BindingLaw → s.CloseLimited → ∀ q m, e = some q → v.state.meal = some (i, m) → q.closes ≤ m.deadline)
    (door : s.DoorAllows l v.state) (rangeL : s.RangeLaw → v.inRange)
    (rangeE : s.RangeLaw → ∀ q, e = some q → q.inRange) :
    s.KeepsLaws ((s.setLocker l v).setEntry i e) where
  keys hk := State.UniqueKeys.setEntry (s := s.setLocker l v) hk (keys hk)
  binding hb := by
    obtain ⟨own, own'⟩ := footprint hb
    have hco := coherent hb
    obtain ⟨names, named⟩ := hb
    refine ⟨fun k j hj => ?_, fun j q k hq hk => ?_⟩
    · rw [State.locker_setEntry, State.locker_setLocker] at hj ⊢
      rw [State.entry_setEntry, State.entry_setLocker]
      split at hj
      · next hk =>
        subst hk
        rcases hco with ⟨none, _⟩ | ⟨slot, q, he, hf⟩
        · rw [none] at hj; cases hj
        · rw [slot] at hj; cases hj
          exact ⟨q, by rw [if_pos rfl]; exact he, by rw [if_pos rfl]; exact hf⟩
      · next hk =>
        obtain ⟨r, hr, hf⟩ := names k j hj
        have hij : i ≠ j := by
          rintro rfl
          exact hk (own' r k hr (LockerState.fits_locker hf)).symm
        exact ⟨r, by rw [if_neg hij]; exact hr, by rw [if_neg hk]; exact hf⟩
    · rw [State.entry_setEntry, State.entry_setLocker] at hq
      rw [State.locker_setEntry, State.locker_setLocker]
      split at hq
      · next hij =>
        subst hij
        rcases hco with ⟨_, none⟩ | ⟨slot, q', he, hf⟩
        · rw [none q hq] at hk; cases hk
        · rw [he] at hq; cases hq
          rw [LockerState.fits_locker hf] at hk; cases hk
          rw [if_pos rfl]; exact slot
      · next hij =>
        have hlk : l ≠ k := by
          rintro rfl
          exact hij (own j (named j q l hq hk)).symm
        rw [if_neg hlk]; exact named j q k hq hk
  close hb hc := by
    obtain ⟨own, own'⟩ := footprint hb
    have hco := coherent hb
    intro k j m q hm hq
    rw [State.locker_setEntry, State.locker_setLocker] at hm
    rw [State.entry_setEntry, State.entry_setLocker] at hq
    split at hm
    · next hk =>
      have hj : i = j := by
        have hs := LockerState.slot_of_meal hm
        rcases hco with ⟨none, _⟩ | ⟨slot, _⟩
        · rw [none] at hs; cases hs
        · rw [slot] at hs; exact Option.some.inj hs
      subst hj
      rw [if_pos rfl] at hq
      exact close hb hc q m hq hm
    · next hk =>
      split at hq
      · next hij =>
        subst hij
        obtain ⟨r, hr, hf⟩ := hb.1 k i (LockerState.slot_of_meal hm)
        exact absurd (own' r k hr (LockerState.fits_locker hf)).symm hk
      · exact hc k j m q hm hq
  queue := id
  door _ hd := hd.setLocker door
  port _ := id
  budget := id
  mode := id
  pass := id
  range hr := State.RangeLaw.setEntry (s := s.setLocker l v) (hr.setLocker (rangeL hr)) (rangeE hr)

/-- An entry becomes FREE and the locker it names enters a state that names no slot and no side. -/
theorem State.unbind_keeps {s : State} {l : LockerId} {i : Slot} {st : LockerState}
    (footprint : s.BindingLaw → s.Footprint l i) (slot : st.slot = none) (side : st.sideInUse = none) :
    s.KeepsLaws ((s.enterLocker l st).setEntry i none) :=
  State.pair_keeps footprint (fun _ => .inl ⟨by simpa using slot, nofun⟩) (fun _ => nofun) (fun _ _ => nofun)
    (.inl (by simpa using side)) (fun h => (h.locker l).enter st) (fun _ => nofun)

/-- An entry goes back to unbound and the locker it names enters a state that names no slot and no side. -/
theorem State.release_keeps {s : State} {l : LockerId} {i : Slot} {st : LockerState} {r q : Reservation}
    (hr : s.entry i = some r) (hl : s.BindingLaw → s.Footprint l i) (tag : q.tag = r.tag) (code : q.code = r.code)
    (unbound : q.stage.locker = none) (range : s.RangeLaw → q.inRange) (slot : st.slot = none)
    (side : st.sideInUse = none) : s.KeepsLaws ((s.enterLocker l st).setEntry i (some q)) :=
  State.pair_keeps hl (fun _ => .inl ⟨by simpa using slot, by rintro _ ⟨⟩; exact unbound⟩)
    (fun hk => by rintro _ ⟨⟩; exact hk.others hr tag code)
    (fun _ _ => by
      rintro _ m ⟨⟩ hm
      rw [Locker.enter_state, LockerState.meal_of_slot_none slot] at hm; cases hm)
    (.inl (by simpa using side)) (fun h => (h.locker l).enter st) (fun h => by rintro _ ⟨⟩; exact range h)

/-- An entry and the locker it names move together to another bound pair of states. -/
theorem State.rebind_keeps {s : State} {l : LockerId} {i : Slot} {st : LockerState} {r q : Reservation}
    (hr : s.entry i = some r) (hl : s.BindingLaw → s.Footprint l i) (tag : q.tag = r.tag) (code : q.code = r.code)
    (slot : st.slot = some i) (fits : s.BindingLaw → st.fits l q.stage)
    (close : s.BindingLaw → s.CloseLimited → ∀ m, st.meal = some (i, m) → q.closes ≤ m.deadline)
    (door : s.DoorAllows l st) (range : s.RangeLaw → q.inRange) :
    s.KeepsLaws ((s.enterLocker l st).setEntry i (some q)) :=
  State.pair_keeps hl (fun hb => .inr ⟨by simpa using slot, q, rfl, by simpa using fits hb⟩)
    (fun hk => by rintro _ ⟨⟩; exact hk.others hr tag code)
    (fun hb hc => by rintro _ m ⟨⟩ hm; exact close hb hc m (by simpa using hm))
    (by simpa [State.DoorAllows] using door) (fun h => (h.locker l).enter st)
    (fun h => by rintro _ ⟨⟩; exact range h)

end Sys2Proof.Machine
end

section
/-! The laws of the state kept by writes of the Operation Queue, of the Server Port's queues, of columns and of the
modes. -/

-- The declarations are elaborated one after another, which bounds the memory that their checks take at one time.
set_option Elab.async false

namespace Sys2Proof.Machine

open Config

/-! ## The Operation Queue (09 R166 to R171) -/

/-- While the queue has a free entry, one of the tags 1 to 31 is unused: at most 30 operations have one. -/
theorem State.tag_free {s : State} (room : 0 < s.freeEntries) :
    ∃ t, 1 ≤ t ∧ t ≤ 31 ∧ ∀ op ∈ s.ops, op.tag ≠ t := by
  by_contra none
  push Not at none
  have covered : Finset.Icc 1 31 ⊆ ((s.ops.filter fun op => op.tag != 0).map Op.tag).toFinset := by
    intro t ht
    obtain ⟨low, high⟩ := Finset.mem_Icc.mp ht
    obtain ⟨op, hop, rfl⟩ := none t low high
    simp only [List.mem_toFinset, List.mem_map, List.mem_filter, bne_iff_ne, ne_eq]
    exact ⟨op, ⟨hop, by omega⟩, rfl⟩
  have many := (Finset.card_le_card covered).trans (List.toFinset_card_le _)
  rw [Nat.card_Icc, List.length_map, ← List.countP_eq_length_filter] at many
  simp only [State.freeEntries, sharedEntries] at room
  omega

/-- An operation queued gets a tag 1 to 31 that no other has. -/
theorem State.lowestTag_fresh {s : State} (room : s.hasRoom = true) :
    1 ≤ s.lowestTag ∧ s.lowestTag ≤ 31 ∧ ∀ op ∈ s.ops, op.tag ≠ s.lowestTag := by
  obtain ⟨low, high, fresh, _⟩ := State.lowestTag_spec (State.tag_free (by simpa [State.hasRoom] using room))
  exact ⟨low, high, fresh⟩

/-- Distinct tags up to 31 are at most 32. -/
theorem length_le_of_tags {ops : List Op} (distinct : (ops.map Op.tag).Nodup) (bound : ∀ op ∈ ops, op.tag ≤ 31) :
    ops.length ≤ 32 := by
  have := List.Nodup.length_le_card (l := ops.attach.map fun o => (⟨o.1.tag, Nat.lt_succ_of_le (bound _ o.2)⟩ : Fin 32))
    (by
      refine List.Nodup.of_map Fin.val ?_
      simpa [List.map_map, Function.comp_def, List.attach_map_val] using distinct)
  simpa using this

/-- What a queue of operations must be for the queue law, the bound on its length apart, which follows. -/
theorem State.queueLaw_iff {s : State} : s.QueueLaw ↔ (s.ops.map Op.tag).Nodup
    ∧ ∀ op ∈ s.ops, op.tag ≤ 31 ∧ (op.tag = 0 ↔ op.origin = .poll)
      ∧ (op.mode.isWalk = true → op.origin = .roll ∧ op.kind = 0x03#8) :=
  ⟨fun h => h.2, fun h => ⟨length_le_of_tags h.1 fun op hop => (h.2 op hop).1, h⟩⟩

/-- While the queue law stands, two operations of one tag are the same. -/
theorem State.QueueLaw.eq_of_tag {s : State} (h : s.QueueLaw) {o p : Op} (ho : o ∈ s.ops) (hp : p ∈ s.ops)
    (tag : o.tag = p.tag) : o = p :=
  List.inj_on_of_nodup_map h.2.1 ho hp tag

/-- The conditions under which an operation may be queued by a block: no POLL, mode WALK for the Column
Supervisor's ROLL alone, an UNLATCH only where none is outstanding and for the side in use, a PASS operation only of a
kind with a Filter Table entry and while a reply entry is free for it. -/
structure State.MayQueue (s : State) (op : Op) : Prop where
  poll : op.origin ≠ .poll
  walk : op.mode.isWalk = true → op.origin = .roll ∧ op.kind = 0x03#8
  unlatch : ∀ l, op.isUnlatch l = true → s.doorBusy l = false
    ∧ ∀ side, (s.locker l).state.sideInUse = some side → op.side = some side
  pass : op.origin = .pass → (op.kind = 0x09#8 ∨ 0x10 ≤ op.kind.toNat ∧ op.kind.toNat ≤ 0x3F)
    ∧ s.passOutstanding < 2 ∧ s.replies.length + s.passOutstanding < 8

/-- An operation that is no UNLATCH, no walk and no PASS operation may always be queued. -/
theorem State.mayQueue_plain {s : State} {op : Op} (walk : op.mode.isWalk = false)
    (kind : op.kind ≠ 0x04#8) (pass : op.origin ≠ .pass) (poll : op.origin ≠ .poll) : s.MayQueue op where
  poll := poll
  walk h := by rw [walk] at h; cases h
  unlatch l h := absurd h (by simp [Op.isUnlatch, kind])
  pass h := absurd h pass

/-- An operation queued at the tail keeps the laws. -/
theorem State.enqueue_keeps {s : State} {op : Op} (may : s.MayQueue op) : s.KeepsLaws (s.enqueue op) := by
  by_cases room : s.hasRoom = true
  case neg => rw [State.enqueue, if_neg room]; exact .refl s
  rw [State.enqueue, if_pos room]
  exact {
    keys := id, binding := id, close := fun _ => id, budget := id, mode := id, range := id
    queue := by
      intro h
      obtain ⟨low, high, fresh⟩ := State.lowestTag_fresh room
      obtain ⟨distinct, each⟩ := State.queueLaw_iff.mp h
      refine State.queueLaw_iff.mpr ⟨?_, fun o ho => ?_⟩
      · rw [List.map_append, List.nodup_append]
        refine ⟨distinct, List.nodup_singleton _, ?_⟩
        simp only [List.map_cons, List.map_nil, List.mem_map, List.mem_singleton]
        rintro _ ⟨o, ho, rfl⟩ _ rfl
        exact fresh o ho
      · rcases List.mem_append.mp ho with ho | ho
        · exact each o ho
        · cases List.mem_singleton.mp ho
          exact ⟨high, ⟨fun h0 => by simp only at h0; omega, fun hp => absurd hp may.poll⟩, may.walk⟩
    door := by
      intro _ hd l
      obtain ⟨one, side⟩ := hd l
      have same : Op.isUnlatch { op with tag := s.lowestTag, notBefore := s.now, inFlight := false } l
          = op.isUnlatch l := rfl
      refine ⟨?_, fun o ho hu g hg => ?_⟩
      · simp only [List.filter_append, List.length_append, List.filter_cons, List.filter_nil, same]
        cases hu : op.isUnlatch l with
        | false => simpa using one
        | true =>
          have free := State.doorBusy_false.mp (may.unlatch l hu).1
          simpa using free
      · rcases List.mem_append.mp ho with ho | ho
        · exact side o ho hu g hg
        · cases List.mem_singleton.mp ho
          exact (may.unlatch l (same ▸ hu)).2 g hg
    port := by
      rintro _ ⟨inbox, notices, room8, two⟩
      refine ⟨inbox, notices, ?_, ?_⟩ <;>
        simp only [State.passOutstanding, List.countP_append, List.countP_singleton] at * <;>
        split <;> try simpa using by assumption
      all_goals
        rename_i hp
        obtain ⟨_, h2, h8⟩ := may.pass (by simpa using hp)
        simp only [State.passOutstanding] at h2 h8
        omega
    pass := by
      intro h o ho hp
      rcases List.mem_append.mp ho with ho | ho
      · exact h o ho hp
      · cases List.mem_singleton.mp ho
        exact (may.pass hp).1 }

/-- Operations that leave the queue keep the laws. -/
theorem State.drop_keeps {s : State} {ops : List Op} (sub : ops.Sublist s.ops) :
    s.KeepsLaws { s with ops := ops } where
  keys := id
  binding := id
  close _ := id
  queue h := by
    obtain ⟨distinct, each⟩ := State.queueLaw_iff.mp h
    exact State.queueLaw_iff.mpr ⟨distinct.sublist (sub.map _), fun o ho => each o (sub.subset ho)⟩
  door _ h l := ⟨(sub.filter _).length_le.trans (h l).1, fun o ho => (h l).2 o (sub.subset ho)⟩
  port _ h := by
    obtain ⟨inbox, notices, eight, two⟩ := h
    have fewer : ops.countP (fun op => op.origin == .pass) ≤ s.passOutstanding := sub.countP_le
    exact ⟨inbox, notices, (Nat.add_le_add_left fewer _).trans eight, fewer.trans two⟩
  budget := id
  mode := id
  pass h o ho := h o (sub.subset ho)
  range := id

theorem State.removeOp_keeps (s : State) (tag : Nat) : s.KeepsLaws (s.removeOp tag) :=
  State.drop_keeps List.filter_sublist

theorem State.removeOps_keeps (s : State) (tags : List Nat) : s.KeepsLaws (s.removeOps tags) :=
  State.drop_keeps List.filter_sublist

/-- What a rewrite of an operation in its place leaves as it is, as far as the laws look at operations. -/
structure Op.LikeFor (o p : Op) : Prop where
  tag : p.tag = o.tag
  origin : p.origin = o.origin
  kind : p.kind = o.kind
  walk : p.mode.isWalk = true → o.mode.isWalk = true
  unlatch : ∀ l, p.isUnlatch l = true → o.isUnlatch l = true ∧ p.side = o.side

theorem Op.LikeFor.refl (o : Op) : o.LikeFor o := ⟨rfl, rfl, rfl, id, fun _ h => ⟨h, rfl⟩⟩

/-- Operations rewritten in their places keep the laws, where each stays like it was: always by kind and origin, and
under the queue law in everything the laws look at. -/
theorem State.KeepsLaws.rewriteOps {s t : State} (k : s.KeepsLaws t) {f : Op → Op}
    (like : s.QueueLaw → ∀ o ∈ t.ops, o.LikeFor (f o))
    (pass : t.PassLaw → ∀ o ∈ t.ops, (f o).origin = .pass →
      (f o).kind = 0x09#8 ∨ 0x10 ≤ (f o).kind.toNat ∧ (f o).kind.toNat ≤ 0x3F) :
    s.KeepsLaws { t with ops := t.ops.map f } where
  keys := k.keys
  binding := k.binding
  close := k.close
  queue h := by
    have same := like h
    obtain ⟨distinct, each⟩ := State.queueLaw_iff.mp (k.queue h)
    refine State.queueLaw_iff.mpr ⟨?_, fun p hp => ?_⟩
    · have tags : (t.ops.map f).map Op.tag = t.ops.map Op.tag := by
        rw [List.map_map]
        exact List.map_congr_left fun o ho => (same o ho).tag
      rw [tags]; exact distinct
    · obtain ⟨o, ho, rfl⟩ := List.mem_map.mp hp
      obtain ⟨high, poll, walk⟩ := each o ho
      have l := same o ho
      exact ⟨l.tag ▸ high, by rw [l.tag, l.origin]; exact poll, fun w => by
        rw [l.origin, l.kind]; exact walk (l.walk w)⟩
  door hq hd l := by
    have same := like hq
    obtain ⟨one, side⟩ := k.door hq hd l
    refine ⟨?_, fun p hp hu g hg => ?_⟩
    · have fewer : ((t.ops.map f).filter fun op => op.isUnlatch l).length
          ≤ (t.ops.filter fun op => op.isUnlatch l).length := by
        rw [← List.countP_eq_length_filter, ← List.countP_eq_length_filter, List.countP_map]
        exact List.countP_mono_left fun o ho hu => ((same o ho).unlatch l hu).1
      exact fewer.trans one
    · obtain ⟨o, ho, rfl⟩ := List.mem_map.mp hp
      obtain ⟨hu', hs⟩ := (same o ho).unlatch l hu
      rw [hs]; exact side o ho hu' g hg
  port hq hp := by
    have same := like hq
    obtain ⟨inbox, notices, eight, two⟩ := k.port hq hp
    have count : (t.ops.map f).countP (fun op => op.origin == .pass) = t.passOutstanding := by
      rw [List.countP_map]
      exact List.countP_congr fun o ho => by simp [(same o ho).origin]
    exact ⟨inbox, notices, by rw [State.passOutstanding, count]; exact eight,
      by rw [State.passOutstanding, count]; exact two⟩
  budget := k.budget
  mode := k.mode
  pass h p hp := by
    obtain ⟨o, ho, rfl⟩ := List.mem_map.mp hp
    exact pass (k.pass h) o ho
  range := k.range

/-- One operation of the queue is replaced in its place by one like it. -/
theorem State.KeepsLaws.replaceOp {s t : State} (k : s.KeepsLaws t) {o op : Op} (ho : o ∈ t.ops) (like : o.LikeFor op) :
    s.KeepsLaws (t.updateOp op.tag fun _ => op) := by
  refine k.rewriteOps (fun hq p hp => ?_) (fun h p hp => ?_)
  · split
    · next tag =>
      rw [(k.queue hq).eq_of_tag hp ho (tag.trans like.tag)]
      exact like
    · exact .refl p
  · split
    · rw [like.origin, like.kind]; exact h o ho
    · exact h p hp

/-- A PASS operation that is answered and leaves the queue. -/
theorem State.KeepsLaws.answerPass {s t : State} (k : s.KeepsLaws t) {tag : Nat} (r : Reply)
    (queued : s.QueueLaw → ∃ o ∈ t.ops, o.tag = tag ∧ o.origin = .pass) :
    s.KeepsLaws ((t.placeReply r).removeOp tag) where
  keys := k.keys
  binding := k.binding
  close := k.close
  queue := (k.trans (t.removeOp_keeps tag)).queue
  door := (k.trans (t.removeOp_keeps tag)).door
  port hq hp := by
    obtain ⟨inbox, notices, eight, two⟩ := k.port hq hp
    obtain ⟨o, ho, tag_eq, pass⟩ := queued hq
    have fewer : (t.ops.filter fun op => op.tag != tag).countP (fun op => op.origin == .pass)
        < t.passOutstanding := by
      have split := List.countP_eq_countP_filter_add t.ops (fun op => op.origin == .pass) (fun op => op.tag != tag)
      have one : 0 < (t.ops.filter fun op => !(op.tag != tag)).countP (fun op => op.origin == .pass) :=
        List.countP_pos_iff.mpr ⟨o, List.mem_filter.mpr ⟨ho, by simp [tag_eq]⟩, by simp [pass]⟩
      rw [State.passOutstanding, split]
      omega
    refine ⟨inbox, notices, ?_, ?_⟩
    · simp only [State.removeOp_fields, State.placeReply_fields, State.passOutstanding, List.length_append,
        List.length_singleton] at *
      omega
    · simp only [State.removeOp_fields, State.placeReply_fields, State.passOutstanding] at *
      omega
  budget := k.budget
  mode := k.mode
  pass := (k.trans (t.removeOp_keeps tag)).pass
  range := k.range

/-! ## The Server Port (11 R196 to R199) -/

/-- A reply entry is free beyond those kept for the PASS operations outstanding. -/
def State.ReplySpare (s : State) : Prop := s.replies.length + s.passOutstanding < 8

theorem State.replySpare_of_room {s : State} (h : s.replyRoom = true) : s.ReplySpare := by
  have h : s.passOutstanding < 8 - s.replies.length := of_decide_eq_true h
  unfold State.ReplySpare
  omega

theorem State.replySpare_of_canTake {s : State} (h : s.canTake = true) : s.ReplySpare :=
  State.replySpare_of_room (by simp only [State.canTake, Bool.and_eq_true] at h; exact h.1)

theorem State.placeReply_keeps {s : State} {r : Reply} (spare : s.ReplySpare) : s.KeepsLaws (s.placeReply r) where
  keys := id
  binding := id
  close _ := id
  queue := id
  door _ := id
  port _ h := by
    obtain ⟨inbox, notices, _, two⟩ := h
    refine ⟨inbox, notices, ?_, two⟩
    simp only [State.ReplySpare, State.passOutstanding, State.placeReply_fields, List.length_append,
      List.length_singleton] at *
    omega
  budget := id
  mode := id
  pass := id
  range := id

theorem State.answer_keeps {s : State} {k : Byte} {st : Status} {data : List Byte} (spare : s.ReplySpare) :
    s.KeepsLaws (s.answer k st data) := State.placeReply_keeps spare

/-- The queues of the Server Port change within their bounds, and the gap count in its own. -/
theorem State.port_keeps {s t : State}
    (rest : t = { s with inbox := t.inbox, replies := t.replies, notices := t.notices, sending := t.sending
                         gap := t.gap, counters := t.counters, restartPending := t.restartPending
                         serverRx := t.serverRx, now := t.now })
    (inbox : s.inbox.length ≤ 4 → t.inbox.length ≤ 4) (notices : s.notices.length ≤ 64 → t.notices.length ≤ 64)
    (replies : t.replies.length ≤ s.replies.length) (gap : s.gap ≤ 65535 → t.gap ≤ 65535) : s.KeepsLaws t := by
  rw [rest]
  exact {
    keys := id, binding := id, close := fun _ => id, queue := id, door := fun _ => id, budget := id, mode := id
    pass := id
    port := fun _ h => by
      obtain ⟨i, n, eight, two⟩ := h
      exact ⟨inbox i, notices n, (Nat.add_le_add_right replies _).trans eight, two⟩
    range := fun h => by
      obtain ⟨cols, lks, ents, classes, court, g, streak⟩ := h
      exact ⟨cols, lks, ents, classes, court, gap g, streak⟩ }

theorem State.queueNotice_keeps (s : State) (n : Notice) : s.KeepsLaws (s.queueNotice n) := by
  unfold State.queueNotice
  split
  · next room =>
    exact State.port_keeps rfl id (fun _ => by simp only [noticeSize] at room; simp; omega) le_rfl id
  · exact State.port_keeps rfl id id le_rfl (fun _ => by simp [satInc])

/-- The counters are no part of any law. -/
theorem State.counters_keeps (s : State) (k : Counters) : s.KeepsLaws { s with counters := k } :=
  State.port_keeps rfl id id le_rfl id

theorem State.reach_keeps (s : State) (t : Time) : s.KeepsLaws (s.reach t) := State.port_keeps rfl id id le_rfl id

theorem State.transmit_keeps (s : State) : s.KeepsLaws s.transmit := by
  unfold State.transmit
  split
  · exact .refl s
  · split
    · next r rest hr => exact State.port_keeps rfl id id (by simp [hr]) id
    · next n rest hr hn =>
      unfold State.fillGap
      split
      · exact State.port_keeps rfl id (by simp [hn]) (by simp) (by simp)
      · exact State.port_keeps rfl id (by simp only [hn, List.length_cons]; omega) (by simp) id
    · exact .refl s

/-- An event keeps the laws when what it runs does; while RESET_N holds the part nothing happens. -/
theorem event_keeps {f : State → State} (h : ∀ s : State, s.KeepsLaws (f s)) {s t : State}
    (step : event f s = .next t) : s.KeepsLaws t := by
  simp only [event, Host.Outcome.next.injEq] at step
  subst step
  split
  · exact .refl s
  · exact (h s).trans (f s).transmit_keeps

/-- MI takes the head of the inbox with a reply entry free for its answer. -/
theorem State.takeRequest_keeps {kind : Byte} {act : State → List Byte → State}
    (h : ∀ (s : State) body, s.ReplySpare → s.KeepsLaws (act s body)) (s : State) :
    s.KeepsLaws (s.takeRequest kind act) := by
  unfold State.takeRequest
  split
  · exact .refl s
  · next f rest hi =>
    split
    · next may =>
      have taken : s.KeepsLaws { s with inbox := rest } :=
        State.port_keeps rfl (fun b => by rw [hi] at b; exact (Nat.le_succ _).trans b) id le_rfl id
      exact taken.trans (h _ _ (State.replySpare_of_canTake may.2.2))
    · exact .refl s

/-! ## Columns (chapters 5, 10) -/

/-- A column record in range is written: every law stands but the budget law, which looks at that record. -/
theorem State.setColumn_keepsButBudget {s : State} {c : Col} {v : Column} (range : s.RangeLaw → v.inRange) :
    s.KeepsButBudget (s.setColumn c v) where
  keys := id
  binding := id
  close _ := id
  queue := id
  door _ := id
  port _ := id
  mode := id
  pass := id
  range h := by
    obtain ⟨cols, rest⟩ := id h
    refine ⟨fun k => ?_, rest⟩
    rw [State.column_setColumn]
    split
    · exact range h
    · exact cols k

/-- A column record written keeps the laws when it keeps its own: granted units within the budget, and ranges. -/
theorem State.setColumn_keeps {s : State} {c : Col} {v : Column}
    (budget : s.BudgetLaw → v.granted.cells.sum ≤ v.budget) (range : s.RangeLaw → v.inRange) :
    s.KeepsLaws (s.setColumn c v) where
  toKeepsButBudget := State.setColumn_keepsButBudget range
  budget h k := by
    rw [State.column_setColumn]
    split
    · exact budget h
    · exact h k

/-- The records of a state in range are in range. -/
theorem State.RangeLaw.column {s : State} (h : s.RangeLaw) (c : Col) : (s.column c).inRange := h.1 c

/-- A column record changes in fields that no law looks at. -/
theorem State.setColumn_free_keeps {s : State} {c : Col} {v : Column} (granted : v.granted = (s.column c).granted)
    (budget : v.budget = (s.column c).budget) (pending : v.pendingBudget = (s.column c).pendingBudget)
    (silence : v.silence = (s.column c).silence ∨ v.silence ≤ 3) (wrong : v.wrong = (s.column c).wrong)
    (lockout : v.lockout = (s.column c).lockout) : s.KeepsLaws (s.setColumn c v) :=
  State.setColumn_keeps (fun h => by rw [granted, budget]; exact h c) fun h => by
    obtain ⟨silent, rest⟩ := h.column c
    refine ⟨by rcases silence with same | low <;> omega, ?_⟩
    rw [granted, budget, pending, wrong, lockout]
    exact rest

/-! ## Fields that no law looks at -/

/-- The exchange in flight, the receivers, the timers, internal time, the TRAIN-SHIFT walk, the Filter Table, what
waits for the transmitter and the commands that wait are no part of any law. -/
theorem State.free_keeps {s t : State}
    (rest : t = { s with pending := t.pending, held := t.held, now := t.now, courtNext := t.courtNext
                         shift := t.shift, reserve := t.reserve, exchange := t.exchange, released := t.released
                         columnRx := t.columnRx, pollNext := t.pollNext, serverRx := t.serverRx
                         sending := t.sending, restartPending := t.restartPending, filter := t.filter
                         counters := t.counters, choices := t.choices }) : s.KeepsLaws t := by
  rw [rest]
  exact ⟨⟨id, id, fun _ => id, id, fun _ => id, fun _ => id, id, id, id⟩, id⟩

end Sys2Proof.Machine
end

section
/-! What a block does while an event runs: it keeps the laws, writes tables and adds to the queues of operations and
notices, and nothing else. Reservations and lockers (chapters 1 and 2). -/

-- The declarations are elaborated one after another, which bounds the memory that their checks take at one time.
set_option Elab.async false

namespace Sys2Proof.Machine

open Config

/-! ## Actions of blocks -/

/-- The part `s` with everything that the action of a block may write as it is in `t`. -/
def State.withRecords (s t : State) : State :=
  { s with entries := t.entries, lockers := t.lockers, columns := t.columns, ops := t.ops
           notices := t.notices, gap := t.gap, counters := t.counters, choices := t.choices }

/-- The action of a block: it keeps the laws, writes records and counters, and adds notices and operations, no PASS
operation among them. -/
structure State.Action (s t : State) : Prop where
  keeps : s.KeepsLaws t
  outside : t = s.withRecords t
  notices : s.notices <+: t.notices
  ops : ∃ new, t.ops = s.ops ++ new ∧ ∀ o ∈ new, o.origin ≠ .pass

theorem State.Action.refl (s : State) : s.Action s :=
  ⟨.refl s, rfl, List.prefix_rfl, [], (List.append_nil _).symm, List.forall_mem_nil _⟩

theorem State.Action.trans {s t u : State} (h : s.Action t) (k : t.Action u) : s.Action u where
  keeps := h.keeps.trans k.keeps
  outside := calc
    u = t.withRecords u := k.outside
    _ = (s.withRecords t).withRecords u := by rw [← h.outside]
    _ = s.withRecords u := rfl
  notices := h.notices.trans k.notices
  ops := by
    obtain ⟨a, ha, ha'⟩ := h.ops
    obtain ⟨b, hb, hb'⟩ := k.ops
    exact ⟨a ++ b, by rw [hb, ha, List.append_assoc], fun o ho =>
      (List.mem_append.mp ho).elim (ha' o) (hb' o)⟩

/-- An action that writes records and counters alone. -/
theorem State.KeepsLaws.action {s t : State} (h : s.KeepsLaws t) (rest : t = s.withRecords t := by rfl)
    (notices : t.notices = s.notices := by rfl) (ops : t.ops = s.ops := by rfl) : s.Action t where
  keeps := h
  outside := rest
  notices := by rw [notices]
  ops := ⟨[], by rw [ops, List.append_nil], List.forall_mem_nil _⟩

theorem State.foldl_action {α : Type} {f : State → α → State} (h : ∀ (s : State) a, s.Action (f s a)) (s : State)
    (as : List α) : s.Action (as.foldl f s) := by
  induction as generalizing s with
  | nil => exact .refl s
  | cons a as ih => exact (h s a).trans (ih (f s a))

/-- An action leaves the replies as they are, and the PASS operations outstanding. -/
theorem State.Action.replySpare {s t : State} (h : s.Action t) (spare : s.ReplySpare) : t.ReplySpare := by
  obtain ⟨new, ops, pass⟩ := h.ops
  have replies : t.replies = s.replies := by rw [h.outside]; rfl
  have none : new.countP (fun op => op.origin == .pass) = 0 :=
    List.countP_eq_zero.mpr fun o ho => by simp [pass o ho]
  simpa [State.ReplySpare, State.passOutstanding, ops, replies, none] using spare

/-- An action leaves the operations of the queue where they are. -/
theorem State.Action.mem_ops {s t : State} (h : s.Action t) {o : Op} (ho : o ∈ s.ops) : o ∈ t.ops := by
  obtain ⟨new, ops, _⟩ := h.ops
  rw [ops]
  exact List.mem_append_left new ho

theorem State.enqueue_action {s : State} {op : Op} (may : s.MayQueue op) (pass : op.origin ≠ .pass) :
    s.Action (s.enqueue op) where
  keeps := State.enqueue_keeps may
  outside := by unfold State.enqueue; split <;> rfl
  notices := by simp
  ops := by
    unfold State.enqueue
    split
    · exact ⟨_, rfl, by rintro o ho; cases List.mem_singleton.mp ho; exact pass⟩
    · exact ⟨[], (List.append_nil _).symm, List.forall_mem_nil _⟩

theorem State.queueNotice_action (s : State) (n : Notice) : s.Action (s.queueNotice n) where
  keeps := s.queueNotice_keeps n
  outside := by unfold State.queueNotice; split <;> rfl
  notices := by
    unfold State.queueNotice
    split
    · exact List.prefix_append _ _
    · exact List.prefix_rfl
  ops := ⟨[], by simp, List.forall_mem_nil _⟩

theorem State.counters_action (s : State) (k : Counters) : s.Action { s with counters := k } :=
  (s.counters_keeps k).action

theorem State.panel_action (s : State) (c : Col) (side : Side) (m : Message) : s.Action (s.enqueue (panelOp c side m)) :=
  State.enqueue_action (State.mayQueue_plain rfl (by simp [panelOp, Op.blank]) (by simp [panelOp, Op.blank])
    (by simp [panelOp, Op.blank])) (by simp [panelOp, Op.blank])

theorem State.showIfReachable_action (s : State) (c : Col) (side : Side) (m : Message) :
    s.Action (s.showIfReachable c side m) := by
  unfold State.showIfReachable
  split
  · exact s.panel_action c side m
  · exact .refl s

theorem State.purgeOp_action {s : State} {kind : Byte} (l : LockerId) (h : kind ≠ 0x04#8) :
    s.Action (s.enqueue (purgeOp kind l)) :=
  State.enqueue_action (State.mayQueue_plain rfl (by simpa [purgeOp, Op.blank] using h) (by simp [purgeOp, Op.blank])
    (by simp [purgeOp, Op.blank])) (by simp [purgeOp, Op.blank])

theorem State.queueAbort_action (s : State) (l : LockerId) (walkStep : Bool) : s.Action (s.queueAbort l walkStep) := by
  unfold State.queueAbort
  split
  · exact .refl s
  · split
    · exact State.purgeOp_action l (by decide)
    · exact .refl s

/-! ## Expiry (01 R12 to R16) -/

/-- The reasons that may stand as expiry pending (01 Table 1-1). -/
def Reason.timed (why : Reason) : Prop := why = .window ∨ why = .hold ∨ why = .cold

/-- An entry's ending after a write that the laws allow: its count and its notice. -/
theorem State.endEntry_action {s₀ s : State} {i : Slot} {r : Reservation} {why : Reason}
    (hr : s.entry i = some r) (h : s₀.Action (s.setEntry i none)) : s₀.Action (s.endEntry i why) := by
  simp only [State.endEntry, hr]
  split
  · exact h.trans (State.queueNotice_action _ _)
  · exact (h.trans (State.counters_action _ _)).trans (State.queueNotice_action _ _)

/-- An unbound entry becomes FREE. -/
theorem State.setEntry_none_action {s : State} {i : Slot} {r : Reservation} (hr : s.entry i = some r)
    (unbound : r.stage.locker = none) : s.Action (s.setEntry i none) :=
  (State.setEntry_unbound_keeps (e := none) (fun q hq => by rw [hr] at hq; cases hq; exact unbound) nofun
    (fun _ => nofun) (fun _ => nofun)).action

/-- An entry ends, and the locker it names goes to a state that names no slot and no side. -/
theorem State.expire_action {s : State} {i : Slot} {why : Reason} {goes : LockerState} (slot : goes.slot = none)
    (side : goes.sideInUse = none) : s.Action (s.expire i why goes) := by
  unfold State.expire
  cases hr : s.entry i with
  | none => exact .refl s
  | some r =>
    simp only
    cases hl : r.stage.locker with
    | none => exact State.endEntry_action hr (State.setEntry_none_action hr hl)
    | some l =>
      exact State.endEntry_action (r := r) hr
        ((State.unbind_keeps (fun hb => hb.footprint hr hl) slot side).action)

theorem State.expireSpoiled_action (s : State) (i : Slot) (why : Reason) : s.Action (s.expireSpoiled i why) := by
  unfold State.expireSpoiled
  split
  · exact .refl s
  · exact State.expire_action rfl rfl

/-- A timed reason kept as expiry pending. -/
theorem Stage.pending_withPending {g : Stage} {why w : Reason} (h : (g.withPending why).pending = some w) :
    w = why ∨ g.pending = some w := by
  unfold Stage.withPending at h
  split at h
  · exact .inl (Option.some.inj h).symm
  · exact .inl (Option.some.inj h).symm
  · exact .inr h

@[simp] theorem Stage.locker_withPending (g : Stage) (why : Reason) : (g.withPending why).locker = g.locker := by
  unfold Stage.withPending
  split <;> rfl

theorem Stage.fits_withPending {g : Stage} {st : LockerState} {l : LockerId} {why : Reason} (h : st.fits l g) :
    st.fits l (g.withPending why) := by
  unfold Stage.withPending
  split
  · cases st <;> exact h
  · cases st <;> exact h
  · exact h

/-- An entry with a new stage is in range when the expiry pending of the stage is a timed reason. -/
theorem Reservation.inRange.stage {r : Reservation} (h : r.inRange) {g : Stage}
    (hg : ∀ why, g.pending = some why → r.stage.pending = some why ∨ why.timed) : { r with stage := g }.inRange := by
  obtain ⟨tag, tag', code, code', opens, closes, train, hold, pending⟩ := h
  exact ⟨tag, tag', code, code', opens, closes, train, hold, fun why hw => (hg why hw).elim (pending why) id⟩

/-- The same, with a close in range. -/
theorem Reservation.inRange.stage_closes {r : Reservation} (h : r.inRange) {g : Stage} {close : Nat}
    (hg : ∀ why, g.pending = some why → r.stage.pending = some why ∨ why.timed) (hc : close ≤ maxCourt) :
    { r with stage := g, closes := close }.inRange := by
  obtain ⟨tag, tag', code, code', opens, _, train, hold, pending⟩ := h.stage hg
  exact ⟨tag, tag', code, code', opens, hc, train, hold, pending⟩

theorem Reservation.inRange.closes_le {r : Reservation} (h : r.inRange) : r.closes ≤ maxCourt := h.2.2.2.2.2.1

theorem State.setPending_action {s : State} {i : Slot} {r : Reservation} {why : Reason} (hr : s.entry i = some r)
    (timed : why.timed) : s.Action (s.setEntry i (some { r with stage := r.stage.withPending why })) :=
  (State.setEntry_keeps (q := { r with stage := r.stage.withPending why }) hr rfl rfl (by simp)
    (fun _ _ => Stage.fits_withPending) (fun _ _ _ _ _ h => h) (fun h => (h.entry hr).stage fun w hw =>
      (Stage.pending_withPending hw).symm.imp id fun (e : w = why) => e ▸ timed)).action

theorem State.bringTimed_action {s : State} {why : Reason} (timed : why.timed) (i : Slot) :
    s.Action (s.bringTimed i why) := by
  unfold State.bringTimed
  cases hr : s.entry i with
  | none => exact .refl s
  | some r =>
    simp only
    split
    · exact .refl s
    · exact .refl s
    · exact s.expireSpoiled_action i why
    · exact State.setPending_action hr timed
    · exact State.setPending_action hr timed

theorem State.windowDue_action (s : State) (i : Slot) : s.Action (s.windowDue i) := by
  unfold State.windowDue
  cases hr : s.entry i with
  | none => exact .refl s
  | some r =>
    simp only
    split
    · split
      · next hs => exact State.endEntry_action hr (State.setEntry_none_action hr (by rw [hs]; rfl))
      · exact .refl s
      all_goals exact State.bringTimed_action (.inl rfl) i
    · exact .refl s

theorem State.holdDue_action (s : State) (l : LockerId) : s.Action (s.holdDue l) := by
  unfold State.holdDue
  split
  · split
    · exact State.bringTimed_action (.inr (.inl rfl)) _
    · exact .refl s
  · exact .refl s

/-! ## Moves (01 R6, Table 1-3) -/

/-- The entry bound to a locker is the entry of its slot and names the locker. -/
theorem State.boundEntry_some {s : State} {i : Slot} {l : LockerId} {r : Reservation} :
    s.boundEntry i l = some r ↔ s.entry i = some r ∧ r.stage.locker = some l := by
  unfold State.boundEntry
  cases s.entry i with
  | none => simp
  | some q =>
    simp only [Option.ite_none_right_eq_some, Option.some.injEq]
    constructor
    · rintro ⟨h, rfl⟩; exact ⟨rfl, h⟩
    · rintro ⟨rfl, h⟩; exact ⟨h, rfl⟩

/-- Under the binding law the slot that a locker names holds its entry. -/
theorem State.BindingLaw.boundEntry_ne_none {s : State} (h : s.BindingLaw) {i : Slot} {l : LockerId}
    (hi : (s.locker l).state.slot = some i) : s.boundEntry i l ≠ none := by
  obtain ⟨r, hr, hf⟩ := h.1 l i hi
  rw [State.boundEntry_some.mpr ⟨hr, LockerState.fits_locker hf⟩]
  nofun

theorem State.loadComplete_action (s : State) (l : LockerId) : s.Action (s.loadComplete l) := by
  unfold State.loadComplete
  split
  · split
    · exact .refl s
    · next i _ _ hst _ r hb =>
      obtain ⟨hr, hl⟩ := State.boundEntry_some.mp hb
      simp only
      have ready := State.rebind_keeps (s := s) (l := l) (i := i)
        (st := .holding i ⟨satAdd (s.court.getD 0) (r.holdOverride.getD (s.classOf r).holdLimit), 0⟩)
        (q := { r with
                stage := .ready l (s.court.getD 0)
                closes := min r.closes (satAdd (s.court.getD 0) (r.holdOverride.getD (s.classOf r).holdLimit)) })
        hr (fun h => h.footprint hr hl) rfl rfl rfl (fun _ => rfl)
        (fun _ _ m hm => by cases hm; exact Nat.min_le_right _ _) (.inl rfl)
        (fun h => (h.entry hr).stage_closes nofun (le_trans (Nat.min_le_left _ _) (h.entry hr).closes_le))
      split
      · exact (ready.action).trans (State.expireSpoiled_action _ _ _)
      · exact (ready.action).trans (State.queueNotice_action _ _)
  · exact .refl s

/-- Writing an entry over itself changes nothing. -/
@[simp] theorem State.setEntry_self (s : State) (i : Slot) : s.setEntry i (s.entry i) = s := by
  simp [State.setEntry, State.entry]

/-- The entry written over itself has keys of its own. -/
theorem State.UniqueKeys.self {s : State} (h : s.UniqueKeys) (i : Slot) (q : Reservation) (hq : s.entry i = some q) :
    ∀ j r, j ≠ i → s.entry j = some r → r.tag ≠ q.tag ∧ r.code ≠ q.code := h.others hq rfl rfl

/-- A record written for a locker that names a slot without being bound to it: the binding law did not stand. -/
theorem State.setLocker_stray_keeps {s : State} {l : LockerId} {i : Slot} {v : Locker}
    (stray : ¬s.BindingLaw) (door : s.DoorAllows l v.state) (range : s.RangeLaw → v.inRange) :
    s.KeepsLaws (s.setLocker l v) := by
  have := State.pair_keeps (s := s) (l := l) (v := v) (i := i) (e := s.entry i) (fun h => absurd h stray)
    (fun h => absurd h stray) (fun h q hq => h.self i q hq) (fun h => absurd h stray) door range
    (fun h q hq => h.entry hq)
  have self : (s.setLocker l v).setEntry i (s.entry i) = s.setLocker l v := (s.setLocker l v).setEntry_self i
  rwa [self] at this

theorem State.loadUndone_action {s : State} {l : LockerId} {goes : LockerState} (slot : goes.slot = none)
    (side : goes.sideInUse = none) : s.Action (s.loadUndone l goes) := by
  unfold State.loadUndone
  split
  · next i _ _ hst =>
    split
    · next hb =>
      refine State.KeepsLaws.action (State.setLocker_stray_keeps (i := i) (fun h => ?_) (.inl (by simpa using side))
        (fun h => (h.locker l).enter goes)) rfl
      exact h.boundEntry_ne_none (by rw [hst]; rfl) hb
    · next r hb =>
      obtain ⟨hr, hl⟩ := State.boundEntry_some.mp hb
      have booked := State.release_keeps (q := { r with stage := .booked }) hr (fun h => h.footprint hr hl) rfl rfl
        rfl (fun h => (h.entry hr).stage nofun) slot side
      exact (booked.action).trans (State.windowDue_action _ _)
  · exact .refl s

/-- A release goes back to READY and HOLDING. -/
theorem State.backToReady_action {s : State} {i : Slot} {l k : LockerId} {m : Meal} {r : Reservation} {t : Nat}
    (hm : (s.locker l).state.meal = some (i, m)) (hr : s.entry i = some r) (hl : r.stage.locker = some l) :
    k = l → s.Action ((s.enterLocker l (.holding i m)).setEntry i (some { r with stage := .ready k t })) := by
  rintro rfl
  refine (State.rebind_keeps (st := .holding i m) (q := { r with stage := .ready k t }) hr
    (fun h => h.footprint hr hl) rfl rfl rfl (fun _ => rfl) ?_ (.inl rfl) (fun h => (h.entry hr).stage nofun)).action
  rintro _ hc m' ⟨⟩
  exact hc k i m r hm hr

theorem State.returnMeal_action (s : State) (l : LockerId) (notice : Nat → LockerId → Notice) :
    s.Action (s.returnMeal l notice) := by
  unfold State.returnMeal
  split
  · exact .refl s
  · next i m hm =>
    split
    · exact .refl s
    · next r hb =>
      obtain ⟨hr, hl⟩ := State.boundEntry_some.mp hb
      have ready (t : Nat) := State.backToReady_action (t := t) hm hr hl rfl
      split
      · exact ((ready _).trans (State.queueNotice_action _ _)).trans (State.windowDue_action _ _)
      · exact ((ready _).trans (State.queueNotice_action _ _)).trans (State.windowDue_action _ _)
      · exact s.expireSpoiled_action _ _
      · exact s.expireSpoiled_action _ _
      all_goals exact .refl s

theorem State.collectMeal_action (s : State) (l : LockerId) : s.Action (s.collectMeal l) := by
  unfold State.collectMeal
  split
  · exact .refl s
  · split
    · exact .refl s
    · next r hb =>
      obtain ⟨hr, hl⟩ := State.boundEntry_some.mp hb
      have free := (State.unbind_keeps (s := s) (st := .purgeWait) (fun h => h.footprint hr hl) rfl rfl).action
      split
      · exact free.trans (State.queueNotice_action _ _)
      · exact free.trans (State.queueNotice_action _ _)
      all_goals exact .refl s

/-! ## Faults (02 R38 to R40) -/

/-- The record of a locker that a fault blocks. -/
def State.blockedRecord (s : State) (l : LockerId) (fault : LockerFault) (stored : Option Stored) : Locker :=
  { (s.locker l).enter (.blocked fault stored) with
    occupied := if fault = .tamper then .unknown else (s.locker l).occupied }

theorem State.tamperOccupied_enterLocker (s : State) (l : LockerId) (fault : LockerFault) (stored : Option Stored) :
    (s.enterLocker l (.blocked fault stored)).tamperOccupied l fault
      = s.setLocker l (s.blockedRecord l fault stored) := by
  unfold State.tamperOccupied State.blockedRecord
  split
  · simp [State.setOccupied, State.setLocker]
  · rfl

theorem State.blockedRecord_inRange {s : State} (h : s.RangeLaw) (l : LockerId) (fault : LockerFault)
    (stored : Option Stored) : (s.blockedRecord l fault stored).inRange := (h.locker l).enter _

theorem State.tamperOccupied_action (s : State) (l : LockerId) (fault : LockerFault) :
    s.Action (s.tamperOccupied l fault) := by
  unfold State.tamperOccupied
  split
  · exact (State.setLocker_state_keeps (v := { s.locker l with occupied := .unknown }) rfl fun h => h.locker l).action
  · exact .refl s

/-- A fault blocks a locker and ends, or gives back, the entry it names. -/
theorem State.faultEntry_action {s : State} {l : LockerId} {i : Slot} {fault : LockerFault} {v : Locker}
    {g : Option Stored} (state : v.state = .blocked fault g) (hi : (s.locker l).state.slot = some i)
    (range : s.RangeLaw → v.inRange) : s.Action ((s.setLocker l v).faultEntry i fault) := by
  have unbound : v.state.slot = none := by rw [state]; rfl
  have side : v.state.sideInUse = none := by rw [state]; rfl
  unfold State.faultEntry
  cases hr : (s.setLocker l v).entry i with
  | none =>
    refine (State.setLocker_stray_keeps (i := i) (fun h => ?_) (.inl side) range).action
    obtain ⟨r, hr', _⟩ := h.1 l i hi
    rw [State.entry_setLocker, hr'] at hr; cases hr
  | some r =>
    have hr' : s.entry i = some r := hr
    simp only
    split
    · have booked : s.KeepsLaws ((s.setLocker l v).setEntry i (some { r with stage := .booked })) :=
        State.pair_keeps (fun h => h.footprint_of_slot hi)
          (fun _ => .inl ⟨unbound, by rintro _ ⟨⟩; rfl⟩) (fun h => by rintro _ ⟨⟩; exact h.others hr' rfl rfl)
          (fun _ _ => by rintro _ m ⟨⟩ hm; rw [LockerState.meal_of_slot_none unbound] at hm; cases hm)
          (.inl side) range (fun h => by rintro _ ⟨⟩; exact (h.entry hr').stage nofun)
      exact (booked.action).trans (State.windowDue_action _ _)
    · have ended : s.KeepsLaws ((s.setLocker l v).setEntry i none) :=
        State.pair_keeps (fun h => h.footprint_of_slot hi) (fun _ => .inl ⟨unbound, nofun⟩) (fun _ => nofun)
          (fun _ _ => nofun) (.inl side) range (fun _ => nofun)
      exact State.endEntry_action hr (ended.action)

theorem State.block_action (s : State) (l : LockerId) (fault : LockerFault) : s.Action (s.block l fault) := by
  have blocked : s.Action
      (match (s.locker l).state.slot with
        | some i => (s.setLocker l (s.blockedRecord l fault (s.storedAtFault l fault))).faultEntry i fault
        | none => s.setLocker l (s.blockedRecord l fault (s.storedAtFault l fault))) := by
    split
    · next i hi =>
      exact State.faultEntry_action rfl hi fun h => State.blockedRecord_inRange h l fault _
    · next hi =>
      exact (State.setLocker_unbound_keeps hi rfl rfl fun h => State.blockedRecord_inRange h l fault _).action
  unfold State.block
  simp only [State.tamperOccupied_enterLocker]
  split
  · exact (blocked.trans (State.queueAbort_action _ _ _)).trans (State.queueNotice_action _ _)
  · exact blocked.trans (State.queueNotice_action _ _)

theorem State.takeFault_action (s : State) (l : LockerId) (fault : LockerFault) : s.Action (s.takeFault l fault) := by
  unfold State.takeFault
  split
  · exact .refl s
  · exact s.tamperOccupied_action l fault
  all_goals exact s.block_action l fault

/-! ## Latch confirmation and unlatch outcomes (02 R36, R42, R44, R48) -/

@[simp] theorem Stage.pending_unlatched (g : Stage) : g.unlatched.pending = g.pending := by
  unfold Stage.unlatched
  split <;> rfl

theorem State.confirmLatch_action (s : State) (l : LockerId) (mask : Option Time) : s.Action (s.confirmLatch l mask) := by
  unfold State.confirmLatch
  split
  · next i m hst =>
    split
    · exact .refl s
    · next r hb =>
      obtain ⟨hr, hl⟩ := State.boundEntry_some.mp hb
      have opened := State.rebind_keeps (s := s) (l := l) (st := .opened i m ⟨none, false, mask⟩)
        (q := { r with stage := r.stage.unlatched }) hr (fun h => h.footprint hr hl) rfl rfl rfl
        (fun h => by
          obtain ⟨r', hr', hf⟩ := h.1 l i (by rw [hst]; rfl)
          rw [hr] at hr'; cases hr'
          rw [hst] at hf
          cases hg : r.stage with
          | releasing k t e => rw [hg] at hf; exact hf
          | _ => rw [hg] at hf; exact hf.elim)
        (fun _ hc => by rintro m' ⟨⟩; exact hc l i m r (by rw [hst]; rfl) hr) (.inr (.inl (by rw [hst]; rfl)))
        (fun h => (h.entry hr).stage fun why hw => .inl (by simpa using hw))
      exact (opened.action).trans (State.queueNotice_action _ _)
  · next i d hst =>
    exact (State.enterLocker_keeps (by rw [hst]; exact ⟨rfl, fun _ g h => by cases g <;> exact h, nofun⟩)
      (.inr (.inl (by rw [hst]; rfl)))).action
  · next st d hst =>
    exact (State.enterLocker_keeps (by rw [hst]; exact .unbound rfl rfl) (.inr (.inl (by rw [hst]; rfl)))).action
  · exact .refl s

theorem State.unlatchFailed_action (s : State) (l : LockerId) (origin : Origin) :
    s.Action (s.unlatchFailed l origin) := by
  unfold State.unlatchFailed
  split
  · exact ((s.takeFault_action l .latch).trans (State.counters_action _ _)).trans
      (State.showIfReachable_action _ _ _ _)
  · exact (s.takeFault_action l .latch).trans (State.showIfReachable_action _ _ _ _)

theorem State.unlatchOutcome_action (s : State) (l : LockerId) (origin : Origin) (slot : Option Slot) (out : Outcome) :
    s.Action (s.unlatchOutcome l origin slot out) := by
  unfold State.unlatchOutcome
  split
  · split
    · exact s.confirmLatch_action l _
    · exact s.unlatchFailed_action l origin
    · exact s.unlatchFailed_action l origin
    · exact s.unlatchFailed_action l origin
    · exact .refl s
  · exact .refl s

/-! ## Clearing ends (04 R93, R94) -/

theorem State.discard_action {s : State} {l : LockerId} (unbound : (s.locker l).state.slot = none) :
    s.Action (s.discard l) :=
  ((State.enterLocker_unbound_keeps unbound rfl rfl).action).trans (State.queueNotice_action _ _)

theorem State.respoil_action {s : State} {l : LockerId} (unbound : (s.locker l).state.slot = none) :
    s.Action (s.respoil l) := (State.enterLocker_unbound_keeps unbound rfl rfl).action

/-! ## Door and latch events (02 R41 to R47) -/

theorem State.setOccupied_action (s : State) (l : LockerId) (o : Occupied) : s.Action (s.setOccupied l o) :=
  (State.setLocker_state_keeps (v := { s.locker l with occupied := o }) rfl fun h => h.locker l).action

theorem State.confirmByEvent_action (s : State) (l : LockerId) : s.Action (s.confirmByEvent l) := by
  unfold State.confirmByEvent
  split
  · exact s.confirmLatch_action l none
  · exact .refl s

/-- The door timing of a state with a side in use changes. -/
theorem LockerState.sameHold_withDoor (st : LockerState) (d : Door) : st.SameHold (st.withDoor d) := by
  cases st with
  | loading i ph e => exact ⟨rfl, fun _ g h => by cases g <;> exact h, nofun⟩
  | opened i m e => exact ⟨rfl, fun _ g h => by cases g <;> exact h, fun i m h => by cases h; exact ⟨_, rfl, rfl⟩⟩
  | clearing stored ph e => exact ⟨rfl, fun _ g h => by cases g <;> exact h, nofun⟩
  | _ => exact .refl _

@[simp] theorem LockerState.sideInUse_withDoor (st : LockerState) (d : Door) :
    (st.withDoor d).sideInUse = st.sideInUse := by cases st <;> rfl

theorem State.withDoor_keeps (s : State) (l : LockerId) (d : Door) :
    s.KeepsLaws (s.enterLocker l ((s.locker l).state.withDoor d)) :=
  State.enterLocker_keeps (LockerState.sameHold_withDoor _ d) (.inr (.inl (by simp)))

theorem State.noteOpening_action (s : State) (l : LockerId) : s.Action (s.noteOpening l) := by
  unfold State.noteOpening
  split
  · next i m d hst =>
    split
    · have := s.withDoor_keeps l { d with since := some s.now }
      rw [hst] at this
      exact this.action
    · exact .refl s
  · exact .refl s

theorem State.doorOpened_action (s : State) (l : LockerId) (side : Side) : s.Action (s.doorOpened l side) := by
  unfold State.doorOpened
  split
  · exact .refl s
  · split
    · split
      · exact .refl s
      · exact (s.confirmByEvent_action l).trans (State.noteOpening_action _ l)
    · exact s.takeFault_action l .tamper

theorem State.closing_action (s : State) (l : LockerId) (occ : Bool) : s.Action (s.closing l occ) := by
  unfold State.closing
  split
  · split
    · exact s.returnMeal_action l _
    · exact s.collectMeal_action l
  · split
    · exact s.loadComplete_action l
    · exact State.loadUndone_action rfl rfl
  · next hst =>
    split
    · exact State.respoil_action (by rw [hst]; rfl)
    · exact State.discard_action (by rw [hst]; rfl)
  · exact .refl s

theorem State.doorClosed_action (s : State) (l : LockerId) (side : Side) (occ : Bool) :
    s.Action (s.doorClosed l side occ) := by
  unfold State.doorClosed
  split
  · exact .refl s
  · split
    · split
      · exact .refl s
      · exact ((s.setOccupied_action l _).trans (State.confirmByEvent_action _ l)).trans (State.closing_action _ l occ)
    · exact s.setOccupied_action l _

theorem State.relatched_action (s : State) (l : LockerId) (side : Side) : s.Action (s.relatched l side) := by
  unfold State.relatched
  split
  · refine (s.confirmByEvent_action l).trans ?_
    unfold State.relatching
    split
    · exact State.returnMeal_action _ l _
    · exact State.loadUndone_action rfl rfl
    · next hst => exact State.respoil_action (by rw [hst]; rfl)
    · exact .refl _
  · exact .refl s

end Sys2Proof.Machine
end

section
/-! Actions of Purge Control, the Collection Engine, the Load Engine and Hold Safety, of the events that a FETCH brings
and of the outcomes that reach a block (chapters 3 to 6; 08 R159). -/

-- The declarations are elaborated one after another, which bounds the memory that their checks take at one time.
set_option Elab.async false

namespace Sys2Proof.Machine

open Config

/-! ## Purges (chapter 6) -/

theorem State.restDue_action (s : State) (l : LockerId) : s.Action (s.restDue l) := by
  unfold State.restDue
  split
  · next hst _ =>
    split
    · exact (State.enterLocker_unbound_keeps (by rw [hst]; rfl) rfl rfl).action
    · exact .refl s
  · exact .refl s

theorem State.stallDue_action (s : State) (l : LockerId) : s.Action (s.stallDue l) := by
  unfold State.stallDue
  split
  · split
    · exact (s.takeFault_action l _).trans (State.queueAbort_action _ l _)
    · exact .refl s
  · exact .refl s

theorem State.startRest_action {s : State} {l : LockerId} (unbound : (s.locker l).state.slot = none) :
    s.Action (s.startRest l) :=
  ((State.enterLocker_unbound_keeps unbound rfl rfl).action).trans (State.restDue_action _ l)

theorem State.startPurging_action {s : State} {l : LockerId} (unbound : (s.locker l).state.slot = none) :
    s.Action (s.startPurging l) :=
  ((State.enterLocker_unbound_keeps unbound rfl rfl).action).trans (State.stallDue_action _ l)

theorem LockerState.slot_of_isPurging {st : LockerState} (h : st.isPurging = true) : st.slot = none := by
  cases st with
  | purging u => rfl
  | _ => cases h

theorem State.purgeStartOutcome_action (s : State) (l : LockerId) (out : Outcome) :
    s.Action (s.purgeStartOutcome l out) := by
  unfold State.purgeStartOutcome
  split
  · split
    · next hst => exact State.startPurging_action (by rw [hst]; rfl)
    · exact s.queueAbort_action l false
  all_goals exact .refl s

theorem State.purgeAbortOutcome_action (s : State) (l : LockerId) (out : Outcome) :
    s.Action (s.purgeAbortOutcome l out) := by
  unfold State.purgeAbortOutcome
  split
  · split
    · next h => exact State.startRest_action (LockerState.slot_of_isPurging h)
    · exact .refl s
  all_goals exact .refl s

theorem State.purgeDone_action (s : State) (l : LockerId) (ok : Bool) : s.Action (s.purgeDone l ok) := by
  unfold State.purgeDone
  split
  · next h =>
    split
    · exact (State.enterLocker_unbound_keeps (LockerState.slot_of_isPurging h) rfl rfl).action
    · exact s.takeFault_action l .purgeFail
  · exact .refl s

/-! ## Codes (chapter 3) -/

theorem State.showFront_action (s : State) (c : Col) (m : Message) : s.Action (s.showFront c m) :=
  s.panel_action c .front m

theorem State.lockoutDue_action (s : State) (c : Col) : s.Action (s.lockoutDue c) := by
  unfold State.lockoutDue
  split
  · split
    · refine State.KeepsLaws.action (State.setColumn_keeps (fun h => h c) fun h => ?_)
      obtain ⟨silence, _, _, rest⟩ := h.column c
      exact ⟨silence, by simp, by simp, rest⟩
    · exact .refl s
  · exact .refl s

theorem State.countWrong_action (s : State) : s.Action s.countWrong := s.counters_action _

/-- A panel's wrong count, and the lockout that goes with it. -/
theorem State.wrongCount_action {s : State} {c : Col} {n : Nat} {lockout : Option Nat} (bound : n ≤ 5)
    (locked : s.RangeLaw → (n = 5 ↔ lockout.isSome)) :
    s.Action (s.setColumn c { s.column c with wrong := n, lockout := lockout }) := by
  refine State.KeepsLaws.action (State.setColumn_keeps (fun h => h c) fun h => ?_)
  obtain ⟨silence, _, _, rest⟩ := h.column c
  exact ⟨silence, bound, locked h, rest⟩

theorem State.wrongCode_action (s : State) (c : Col) : s.Action (s.wrongCode c) := by
  unfold State.wrongCode
  simp only
  split
  · next few =>
    have counted : s.Action (s.setColumn c { s.column c with wrong := min 5 ((s.column c).wrong + 1) }) :=
      State.wrongCount_action (Nat.min_le_left _ _) fun h => by
        obtain ⟨_, _, locked, _⟩ := h.column c
        rw [← locked]
        omega
    exact (counted.trans (State.counters_action _ _)).trans (State.showFront_action _ c _)
  · next many =>
    have locked (u : Nat) : s.Action (State.setColumn ((s.setColumn c
          { s.column c with wrong := min 5 ((s.column c).wrong + 1) }).countWrong) c
        { ((s.setColumn c { s.column c with wrong := min 5 ((s.column c).wrong + 1) }).countWrong).column c with
          lockout := some u }) := by
      have once : s.Action (s.setColumn c
          { s.column c with wrong := min 5 ((s.column c).wrong + 1), lockout := some u }) :=
        State.wrongCount_action (Nat.min_le_left _ _) fun _ => by simp; omega
      have := once.trans (State.countWrong_action _)
      simpa [State.setColumn, State.column, State.countWrong] using this
    exact (((locked _).trans (State.showFront_action _ c _)).trans (State.queueNotice_action _ _)).trans
      (State.lockoutDue_action _ c)

/-- The column and the position of a locker tell which one it is. -/
theorem lockerAt_of_locker (l : LockerId) : lockerAt (lockerCol l) (lockerPos l) = l := by
  apply Fin.ext
  simp only [lockerAt, lockerCol, lockerPos]
  omega

/-- Two lockers with the same column and position are the same. -/
theorem locker_ext {l k : LockerId} (col : lockerCol l = lockerCol k) (pos : lockerPos l = lockerPos k) : l = k := by
  rw [← lockerAt_of_locker l, ← lockerAt_of_locker k, col, pos]

theorem isUnlatch_unlatchOp {l k : LockerId} {side : Side} {origin : Origin} {slot : Option Slot}
    (h : (unlatchOp l side origin slot).isUnlatch k = true) : l = k := by
  simp only [Op.isUnlatch, unlatchOp, Op.blank, Bool.and_eq_true, beq_iff_eq, Dest.column.injEq,
    Option.some.injEq] at h
  obtain ⟨⟨⟨_, col⟩, pos⟩, _⟩ := h
  exact locker_ext col pos

/-- An UNLATCH for the side in use of a locker with no door operation outstanding. -/
theorem State.unlatch_action {s : State} {l : LockerId} {side : Side} {origin : Origin} {slot : Option Slot}
    (free : s.doorBusy l = false) (used : (s.locker l).state.sideInUse = some side) (poll : origin ≠ .poll)
    (pass : origin ≠ .pass) : s.Action (s.enqueue (unlatchOp l side origin slot)) := by
  refine State.enqueue_action ⟨by simpa [unlatchOp, Op.blank] using poll, ?_, ?_, ?_⟩ ?_
  · intro h; cases h
  · intro k hk
    cases isUnlatch_unlatchOp hk
    exact ⟨free, fun g hg => by rw [used] at hg; cases hg; rfl⟩
  · intro h; exact absurd h (by simpa [unlatchOp, Op.blank] using pass)
  · simpa [unlatchOp, Op.blank] using pass

/-- The wrong count of a panel that is not locked out becomes 0. -/
theorem State.wrongReset_action {s : State} {c : Col} (open_ : (s.column c).lockout = none) :
    s.Action (s.setColumn c { s.column c with wrong := 0 }) := by
  refine State.KeepsLaws.action (State.setColumn_keeps (fun h => h c) fun h => ?_)
  obtain ⟨silence, _, _, rest⟩ := h.column c
  exact ⟨silence, Nat.zero_le _, by simp [open_], rest⟩

theorem State.countMatched_action (s : State) : s.Action s.countMatched := s.counters_action _

theorem State.startRelease_action {s : State} {c : Col} {i : Slot} {r : Reservation} {l : LockerId} {t : Nat}
    (hr : s.entry i = some r) (hs : r.stage = .ready l t) (free : s.doorBusy l = false)
    (open_ : (s.column c).lockout = none) : s.Action (s.startRelease c i r l t) := by
  unfold State.startRelease
  split
  · next j m hst =>
    have hl : r.stage.locker = some l := by rw [hs]; rfl
    have released : s.KeepsLaws ((s.enterLocker l (.releasing i m)).setEntry i
        (some { r with stage := .releasing l t none })) := by
      refine State.rebind_keeps hr (fun h => h.footprint hr hl) rfl rfl rfl (fun _ => rfl) ?_ (.inr (.inr free))
        (fun h => (h.entry hr).stage nofun)
      rintro hb hc m' ⟨⟩
      have hj : j = i := (hb.footprint hr hl).1 j (by rw [hst]; rfl)
      exact hc l i m r (by rw [hst, hj]; rfl) hr
    have used : (((s.enterLocker l (.releasing i m)).setEntry i
        (some { r with stage := .releasing l t none })).locker l).state.sideInUse = some .front := by
      simp [LockerState.sideInUse]
    refine ((released.action.trans (State.unlatch_action free used (by decide) (by decide))).trans
      (State.showFront_action _ c (.open_ l))).trans (.trans (State.wrongReset_action ?_) (State.countMatched_action _))
    simpa [State.showFront, State.column] using open_
  · exact .refl s

theorem State.codeReady_action {s : State} {c : Col} {i : Slot} {r : Reservation} {l : LockerId} {t : Nat}
    (hr : s.entry i = some r) (hs : r.stage = .ready l t) (open_ : (s.column c).lockout = none) :
    s.Action (s.codeReady c i r l t) := by
  unfold State.codeReady
  simp only
  split
  · exact s.showFront_action c _
  · split
    · split
      · exact s.showFront_action c _
      · exact s.showFront_action c _
    · split
      · exact s.showFront_action c _
      · next free => exact State.startRelease_action hr hs (by simpa using free) open_

theorem State.codeLookup_action {s : State} {c : Col} (open_ : (s.column c).lockout = none) (digits : Option Nat) :
    s.Action (s.codeLookup c digits) := by
  unfold State.codeLookup
  split
  · exact s.wrongCode_action c
  · split
    · exact s.wrongCode_action c
    · next r hr =>
      split
      · exact s.showFront_action c _
      · exact s.showFront_action c _
      · next hs => exact State.codeReady_action hr hs open_
      · exact s.showFront_action c _
      · exact s.showFront_action c _

theorem State.codeEvent_action (s : State) (c : Col) (digits : Option Nat) : s.Action (s.codeEvent c digits) := by
  unfold State.codeEvent
  split
  · exact s.showFront_action c _
  all_goals
    split
    · exact s.showFront_action c _
    · next open_ => exact State.codeLookup_action open_ digits

/-! ## Loads and clearings (chapter 4) -/

theorem State.showBack_action (s : State) (c : Col) (m : Message) : s.Action (s.showBack c m) :=
  s.showIfReachable_action c .back m

/-- A class in range grants 1 to 3 units; one that is not enabled none. -/
theorem State.classOf_units {s : State} (h : s.RangeLaw) (r : Reservation) : (s.classOf r).units ≤ 3 := by
  obtain ⟨_, _, _, classes, _⟩ := h
  unfold State.classOf
  cases hk : s.classes.get r.cls with
  | none => simp
  | some k =>
    have := classes r.cls k hk
    simp only [FoodClass.inRange, decide_eq_true_eq] at this
    simp only [Option.getD_some]
    omega

/-- A candidate for a load is EMPTY with no door operation outstanding. -/
theorem State.candidate_empty {s : State} {rating : Nat} {l : LockerId} (h : s.candidate rating l = true) :
    (s.locker l).state = .empty ∧ s.doorBusy l = false := by
  simp only [State.candidate, Bool.and_eq_true, beq_iff_eq, Bool.not_eq_true'] at h
  obtain ⟨⟨⟨empty, _⟩, free⟩, _⟩ := h
  exact ⟨empty, free⟩

theorem State.bindLoad_action {s : State} {c : Col} {i : Slot} {r : Reservation} {l : LockerId}
    (hr : s.entry i = some r) (hs : r.stage = .booked) (empty : (s.locker l).state = .empty)
    (free : s.doorBusy l = false) : s.Action (s.bindLoad c i r l) := by
  unfold State.bindLoad
  have bound : s.KeepsLaws ((s.setLocker l
      { s.locker l with state := .loading i .awaitLatch .none, demand := (s.classOf r).units, refusals := 0 }).setEntry
      i (some { r with stage := .loading l })) := by
    refine State.pair_keeps (fun _ => ⟨fun j hj => ?_, fun q k hq hk => ?_⟩)
      (fun _ => .inr ⟨rfl, _, rfl, rfl⟩) (fun h => by rintro _ ⟨⟩; exact h.others hr rfl rfl)
      (fun _ _ => by rintro _ m ⟨⟩ hm; cases hm) (.inr (.inr free)) (fun h => ?_)
      (fun h => by rintro _ ⟨⟩; exact (h.entry hr).stage nofun)
    · rw [empty] at hj; cases hj
    · rw [hr] at hq; cases hq; rw [hs] at hk; cases hk
    · obtain ⟨rating, _, _⟩ := h.locker l
      exact ⟨rating, State.classOf_units h r, Nat.zero_le _⟩
  have unlatched := (bound.action).trans (State.unlatch_action (s := ((s.setLocker l
      { s.locker l with state := .loading i .awaitLatch .none, demand := (s.classOf r).units, refusals := 0 }).setEntry
      i (some { r with stage := .loading l }))) (l := l) (side := .back) (origin := .load) (slot := some i) free
    (by simp [LockerState.sideInUse]) nofun nofun)
  exact unlatched.trans (State.showBack_action _ c _)

theorem State.allocate_action {s : State} {c : Col} {i : Slot} {r : Reservation} (hr : s.entry i = some r)
    (hs : r.stage = .booked) : s.Action (s.allocate c i r) := by
  unfold State.allocate
  simp only
  split
  · next l hl =>
    obtain ⟨empty, free⟩ := State.candidate_empty (List.find?_some hl)
    exact State.bindLoad_action hr hs empty free
  · split
    · exact (s.showBack_action c _).trans (State.queueNotice_action _ _)
    · exact (s.showBack_action c _).trans (State.queueNotice_action _ _)

theorem State.scanLookup_action (s : State) (c : Col) (tag : Nat) : s.Action (s.scanLookup c tag) := by
  unfold State.scanLookup
  split
  · exact s.showBack_action c _
  · split
    · exact s.showBack_action c _
    · next r hr =>
      split
      · next hs => exact State.allocate_action hr hs
      · split
        · exact s.showBack_action c _
        · exact s.showBack_action c _
      all_goals exact s.showBack_action c _

theorem State.backScan_action (s : State) (c : Col) (tag : Nat) : s.Action (s.backScan c tag) := by
  unfold State.backScan
  split
  · exact s.showBack_action c _
  · exact s.showBack_action c _
  · exact s.scanLookup_action c tag

/-- A locker that may be cleared names no slot. -/
theorem Locker.slot_of_clearable {lk : Locker} (h : lk.clearable = true) : lk.state.slot = none := by
  unfold Locker.clearable at h
  cases state : lk.state with
  | spoiled stored => rfl
  | blocked fault stored => rfl
  | _ => rw [state] at h; cases h

theorem State.startClearing_action {s : State} {c : Col} {l : LockerId} (free : s.doorBusy l = false)
    (clearable : (s.locker l).clearable = true) : s.Action (s.startClearing c l) := by
  unfold State.startClearing
  simp only
  generalize hst : LockerState.clearing (s.locker l).state.stored .awaitLatch .none = st
  have cleared : s.Action (s.enterLocker l st) :=
    (State.enterLocker_keeps (by rw [← hst]; exact .unbound (Locker.slot_of_clearable clearable) rfl)
      (.inr (.inr free))).action
  have unlatched := cleared.trans (State.unlatch_action (s := s.enterLocker l st) (l := l) (side := .back)
    (origin := .clear) (slot := none) free (by simp [← hst, LockerState.sideInUse]) nofun nofun)
  exact unlatched.trans (State.showBack_action _ c _)

theorem State.backClear_action (s : State) (c : Col) (position : Nat) : s.Action (s.backClear c position) := by
  unfold State.backClear
  split
  · exact s.showBack_action c _
  · simp only
    split
    · next h =>
      simp only [Bool.and_eq_true, Bool.not_eq_true'] at h
      exact State.startClearing_action h.1.2 h.2
    · exact s.showBack_action c _

/-! ## Cold time and readings (05 R107 to R114) -/

/-- A held meal whose hold deadline stands is replaced. -/
theorem LockerState.sameHold_withMeal {st : LockerState} {i : Slot} {m n : Meal} (h : st.meal = some (i, m))
    (deadline : n.deadline = m.deadline) : st.SameHold (st.withMeal n) := by
  cases st <;> cases h
  all_goals exact ⟨rfl, fun _ g h => by cases g <;> exact h, fun _ _ h => by cases h; exact ⟨_, rfl, deadline.symm⟩⟩

@[simp] theorem LockerState.sideInUse_withMeal (st : LockerState) (m : Meal) :
    (st.withMeal m).sideInUse = st.sideInUse := by cases st <;> rfl

theorem State.addCold_action (s : State) (l : LockerId) : s.Action (s.addCold l) := by
  unfold State.addCold
  split
  · exact .refl s
  · next i m hm =>
    have colder : s.Action (s.enterLocker l ((s.locker l).state.withMeal { m with cold := m.cold + 10 })) :=
      State.KeepsLaws.action (State.enterLocker_keeps (LockerState.sameHold_withMeal hm rfl) (.inr (.inl (by simp))))
    simp only
    split
    · exact colder
    · split
      · exact colder.trans (State.bringTimed_action (.inr (.inr rfl)) i)
      · exact colder

theorem State.blindPeriod_action (s : State) (c : Col) : s.Action (s.blindPeriod c) := by
  unfold State.blindPeriod
  split
  · exact .refl s
  · exact State.foldl_action (fun s p => s.addCold_action (lockerAt c p)) s _

theorem State.takeReading_action (s : State) (c : Col) (l : LockerId) (reading : Option Int) :
    s.Action (s.takeReading c l reading) := by
  unfold State.takeReading
  split
  · exact .refl s
  · split
    · split
      · exact .refl s
      · exact s.takeFault_action l .sensor
    · next t =>
      have written : s.Action (s.setTemp l t) :=
        (State.setLocker_state_keeps (v := { s.locker l with lastTemp := some t }) rfl fun h => h.locker l).action
      simp only
      split
      · exact written
      · refine written.trans ?_
        unfold State.judgeReading
        split
        · exact .refl _
        · split
          · exact State.takeFault_action _ l .overheat
          · unfold State.judgeCold
            split
            · exact .refl _
            · split
              · exact .refl _
              · split
                · exact State.addCold_action _ l
                · exact .refl _

theorem State.heatOutcome_action (s : State) (c : Col) (out : Outcome) : s.Action (s.heatOutcome c out) := by
  unfold State.heatOutcome
  split
  · exact State.foldl_action (fun s p => s.takeReading_action c _ _) s _
  all_goals exact s.blindPeriod_action c

/-! ## Outcomes and events reach their blocks (08 R159, 07 R140) -/

theorem State.deliverAt_action (s : State) (op : Op) (l : LockerId) (out : Outcome) :
    s.Action (s.deliverAt op l out) := by
  unfold State.deliverAt
  split
  · exact s.unlatchOutcome_action l _ _ out
  · exact s.unlatchOutcome_action l _ _ out
  · exact s.unlatchOutcome_action l _ _ out
  · split
    · exact s.purgeStartOutcome_action l out
    · exact s.purgeAbortOutcome_action l out
  all_goals exact .refl s

/-- The outcome of an operation that is no PASS operation reaches its block. -/
theorem State.deliver_action {s : State} {op : Op} (pass : op.origin ≠ .pass) (out : Outcome) :
    s.Action (s.deliver op out) := by
  have atPosition : s.Action (match op.dest, op.position with
      | .column c, some p => s.deliverAt op (lockerAt c p) out
      | _, _ => s) := by
    split
    · exact s.deliverAt_action op _ out
    · exact .refl s
  unfold State.deliver
  split
  · next h => exact absurd h pass
  · split
    · exact s.heatOutcome_action _ out
    · exact .refl s
  · exact atPosition
  · exact atPosition
  · exact atPosition
  · exact atPosition
  all_goals exact .refl s

theorem State.handEvent_action (s : State) (c : Col) (e : Event) : s.Action (s.handEvent c e) := by
  have atPosition {act : LockerId → State} (h : ∀ l, s.Action (act l)) (n : Nat) :
      s.Action (match positionNumber n with
        | none => s
        | some p => act (lockerAt c p)) := by
    split
    · exact .refl s
    · exact h _
  unfold State.handEvent
  simp only
  split
  · exact s.codeEvent_action c _
  · exact s.backScan_action c _
  · exact s.backClear_action c _
  · exact atPosition (fun l => s.doorOpened_action l _) _
  · exact atPosition (fun l => s.doorClosed_action l _ _) _
  · exact atPosition (fun l => s.relatched_action l _) _
  · exact atPosition (fun l => s.purgeDone_action l _) _
  · exact atPosition (fun l => s.takeFault_action l _) _
  · exact s.queueNotice_action _

theorem State.handRaw_action (s : State) (c : Col) (raw : List Byte) : s.Action (s.handRaw c raw) := by
  unfold State.handRaw
  split
  · exact .refl s
  · exact s.handEvent_action c _

end Sys2Proof.Machine
end

section
/-! The laws kept by the Column Supervisor, the Exchange Engine, the heat period, CLOCK-SET, the Server Port and the
Management Interpreter. -/

-- The declarations are elaborated one after another, which bounds the memory that their checks take at one time.
set_option Elab.async false

namespace Sys2Proof.Machine

open Config

/-! ## Column states (10 R179 to R185) -/

theorem fill_zero_sum : (Bank.fill 8 0).cells.sum = 0 := rfl

theorem State.changeState_action (s : State) (c : Col) (st : ColState) : s.Action (s.changeState c st) := by
  unfold State.changeState
  simp only
  split
  · refine State.KeepsLaws.action (State.setColumn_keeps (fun _ => by simp [fill_zero_sum]) fun h => ?_)
    obtain ⟨silence, wrong, lockout, low, high, pending, _⟩ := h.column c
    exact ⟨silence, wrong, lockout, low, high, pending, fun p => by simp⟩
  · split
    · exact State.KeepsLaws.action (State.setColumn_free_keeps rfl rfl rfl (.inl rfl) rfl rfl)
    · exact State.KeepsLaws.action (State.setColumn_free_keeps rfl rfl rfl (.inl rfl) rfl rfl)

theorem State.announce_action (s : State) (c : Col) : s.Action (s.announce c) := s.queueNotice_action _

theorem State.settleDue_action (s : State) (c : Col) : s.Action (s.settleDue c) := by
  unfold State.settleDue
  split
  · split
    · exact (s.changeState_action c _).trans (State.announce_action _ c)
    · exact .refl s
  · exact .refl s

/-- An operation that ends is answered, if it is a PASS operation, and leaves the queue. -/
theorem State.KeepsLaws.endOp {s t : State} (k : s.KeepsLaws t) {op : Op} (out : Outcome)
    (queued : s.QueueLaw → ∃ o ∈ t.ops, o.tag = op.tag ∧ o.origin = op.origin) : s.KeepsLaws (t.endOp op out) := by
  unfold State.endOp
  by_cases pass : op.origin = .pass
  · have answered (r : Reply) : s.KeepsLaws ((t.placeReply r).removeOp op.tag) :=
      k.answerPass r (by rw [pass] at queued; exact queued)
    simp only [State.deliver, pass, State.passOutcome]
    split
    · exact k.trans (t.removeOp_keeps op.tag)
    · split
      · split
        · exact answered _
        · exact answered _
      all_goals exact answered _
  · exact k.trans ((State.deliver_action pass out).keeps.trans (State.removeOp_keeps _ _))

/-- A cancellation removes the operations of its tag alone. -/
theorem State.cancelOne_ops (s : State) (op : Op) :
    ∃ new, (s.cancelOne op).ops = (s.ops ++ new).filter fun o => o.tag != op.tag := by
  unfold State.cancelOne
  by_cases pass : op.origin = .pass
  · refine ⟨[], ?_⟩
    simp only [State.deliver, pass, State.passOutcome, List.append_nil]
    split <;> rfl
  · obtain ⟨new, ops, _⟩ := (State.deliver_action (s := s) pass .cancelled).ops
    exact ⟨new, by rw [State.removeOp, ops]⟩

theorem State.mem_ops_cancelOne {s : State} {op o : Op} (ho : o ∈ s.ops) (tag : o.tag ≠ op.tag) :
    o ∈ (s.cancelOne op).ops := by
  obtain ⟨new, ops⟩ := s.cancelOne_ops op
  rw [ops]
  exact List.mem_filter.mpr ⟨List.mem_append_left _ ho, by simpa using tag⟩

/-- Operations of the queue, each of its own tag, are cancelled one after another. -/
theorem State.KeepsLaws.cancelAll {s t : State} (k : s.KeepsLaws t) {ops : List Op}
    (queued : s.QueueLaw → (ops.map Op.tag).Nodup ∧ ∀ o ∈ ops, o ∈ t.ops) :
    s.KeepsLaws (ops.foldl State.cancelOne t) := by
  induction ops generalizing t with
  | nil => exact k
  | cons op ops ih =>
    refine ih (k.endOp .cancelled fun h => ⟨op, (queued h).2 op List.mem_cons_self, rfl, rfl⟩) fun h => ?_
    obtain ⟨distinct, mem⟩ := queued h
    obtain ⟨fresh, distinct⟩ := List.nodup_cons.mp distinct
    refine ⟨distinct, fun o ho => State.mem_ops_cancelOne (mem o (List.mem_cons_of_mem _ ho)) fun tag => ?_⟩
    exact fresh (tag ▸ List.mem_map_of_mem ho)

/-- An operation that no cancellation of the list names stays in the queue. -/
theorem State.mem_ops_cancelAll {s : State} {ops : List Op} {o : Op} (ho : o ∈ s.ops)
    (tags : ∀ op ∈ ops, o.tag ≠ op.tag) : o ∈ (ops.foldl State.cancelOne s).ops := by
  induction ops generalizing s with
  | nil => exact ho
  | cons op ops ih =>
    exact ih (State.mem_ops_cancelOne ho (tags op List.mem_cons_self)) fun p hp => tags p (List.mem_cons_of_mem _ hp)

theorem State.leaveReach_keeps (s : State) (c : Col) : s.KeepsLaws (s.leaveReach c) := by
  unfold State.leaveReach
  refine State.KeepsLaws.cancelAll (State.free_keeps rfl) fun h => ⟨?_, fun o ho => (List.mem_filter.mp ho).1⟩
  exact h.2.1.sublist (List.filter_sublist.map _)

/-- A walk stays in the queue when a column leaves reach. -/
theorem State.mem_ops_leaveReach {s : State} (h : s.QueueLaw) {c : Col} {o : Op} (ho : o ∈ s.ops)
    (walk : o.mode.isWalk = true) : o ∈ (s.leaveReach c).ops := by
  unfold State.leaveReach
  refine State.mem_ops_cancelAll ho fun op hop tag => ?_
  obtain ⟨hop, cancels⟩ := List.mem_filter.mp hop
  cases h.eq_of_tag ho hop tag
  simp [Op.cancellable, walk] at cancels

theorem State.silenceThree_action (s : State) (c : Col) :
    s.Action (s.setColumn c { s.column c with silence := 3 }) :=
  State.KeepsLaws.action (State.setColumn_free_keeps rfl rfl rfl (.inr le_rfl) rfl rfl)

/-- What goes before a column's leaving reach when it enters LOST. -/
theorem State.enterLost_action (s : State) (c : Col) :
    s.Action (((s.setColumn c { s.column c with silence := 3 }).changeState c .lost).announce c) :=
  ((s.silenceThree_action c).trans (State.changeState_action _ c _)).trans (State.announce_action _ c)

theorem State.enterLost_keeps (s : State) (c : Col) : s.KeepsLaws (s.enterLost c) :=
  (s.enterLost_action c).keeps.trans (State.leaveReach_keeps _ c)

/-- What goes before a column's leaving reach when it enters SERVICE. -/
theorem State.enterService_action (s : State) (c : Col) : s.Action ((s.changeState c .service).announce c) :=
  (s.changeState_action c _).trans (State.announce_action _ c)

theorem State.enterService_keeps (s : State) (c : Col) : s.KeepsLaws (s.enterService c) :=
  (s.enterService_action c).keeps.trans (State.leaveReach_keeps _ c)

theorem State.silenceOf_keeps (s : State) (c : Col) : s.KeepsLaws (s.silenceOf c) := by
  unfold State.silenceOf
  simp only
  split
  any_goals exact .refl s
  all_goals
    split
    · exact s.enterLost_keeps c
    · exact State.setColumn_free_keeps rfl rfl rfl (.inr (by simp only; omega)) rfl rfl

theorem State.answerOf_keeps (s : State) (c : Col) : s.KeepsLaws (s.answerOf c) :=
  State.setColumn_free_keeps rfl rfl rfl (.inr (Nat.zero_le _)) rfl rfl

/-! ## Walks called for, and slots (10 R181, R186, R187) -/

theorem State.fetch_action (s : State) (c : Col) : s.Action (s.enqueue (fetchOp c)) :=
  State.enqueue_action (State.mayQueue_plain rfl (by simp [fetchOp, Op.blank]) (by simp [fetchOp, Op.blank])
    (by simp [fetchOp, Op.blank])) (by simp [fetchOp, Op.blank])

theorem State.offerFetch_action (s : State) (c : Col) : s.Action (s.offerFetch c) := by
  unfold State.offerFetch
  split
  · exact s.fetch_action c
  · exact .refl s

theorem State.walkOp_action (s : State) (first : Col) (others : List Col) (cause : WalkCause) :
    s.Action (s.enqueue (walkOp first others cause)) :=
  State.enqueue_action ⟨by simp [walkOp, Op.blank], fun _ => ⟨rfl, rfl⟩,
    fun l h => absurd h (by simp [Op.isUnlatch, walkOp, Op.blank]), fun h => by simp [walkOp, Op.blank] at h⟩
    (by simp [walkOp, Op.blank])

theorem State.callWalk_action (s : State) (c : Col) : s.Action (s.callWalk c) := by
  have pending : s.Action (s.setColumn c { s.column c with walkPending := true }) :=
    State.KeepsLaws.action (State.setColumn_free_keeps rfl rfl rfl (.inl rfl) rfl rfl)
  unfold State.callWalk
  simp only
  split
  · exact pending
  · refine pending.trans ?_
    split
    · exact State.walkOp_action _ c _ _
    · exact State.KeepsLaws.action (State.setColumn_free_keeps rfl rfl rfl (.inl rfl) rfl rfl)

theorem State.returnBySlot_action (s : State) (c : Col) : s.Action (s.returnBySlot c) :=
  (((s.changeState_action c _).trans (State.callWalk_action _ c)).trans (State.announce_action _ c)).trans
    (State.settleDue_action _ c)

theorem State.takeSlot_keeps (s : State) (c : Col) (a : Option SlotAnswer) : s.KeepsLaws (s.takeSlot c a) := by
  unfold State.takeSlot
  split
  · exact s.silenceOf_keeps c
  · next a =>
    have heard : s.KeepsLaws (s.setColumn c { s.column c with silence := 0, attention := a.attn }) :=
      State.setColumn_free_keeps rfl rfl rfl (.inr (Nat.zero_le _)) rfl rfl
    simp only
    split
    · split
      · exact heard
      · exact heard.trans (State.returnBySlot_action _ c).keeps
    · split
      · exact heard.trans (State.enterService_keeps _ c)
      · exact heard.trans (State.returnBySlot_action _ c).keeps
    · split
      · exact heard.trans (State.enterService_keeps _ c)
      · exact heard.trans (State.returnBySlot_action _ c).keeps
    · split
      · exact heard.trans (State.enterService_keeps _ c)
      · exact heard
    · split
      · exact heard.trans (State.enterService_keeps _ c)
      · exact heard.trans (State.offerFetch_action _ c).keeps
    · split
      · exact heard.trans (State.enterService_keeps _ c)
      · exact heard.trans (State.offerFetch_action _ c).keeps

/-! ## Reconciliation (10 R192, R193; 06 R127) -/

/-- The fields of a descriptor are written; its rating is two bits wide. -/
theorem State.writeDescriptor_action {s : State} {l : LockerId} {d : Descriptor} (rating : d.rating ≤ 3) :
    s.Action (s.writeDescriptor l d) :=
  State.KeepsLaws.action (State.setLocker_state_keeps rfl fun h => by
    obtain ⟨_, demand, refusals⟩ := h.locker l
    exact ⟨rating, demand, refusals⟩)

theorem descriptorOf_rating (body : List Byte) : (descriptorOf body).rating ≤ 3 := by
  unfold descriptorOf
  exact Nat.le_of_lt_succ (Nat.mod_lt _ (by decide))

theorem State.movePresent_action (s : State) (l : LockerId) (occ : Bool) : s.Action (s.movePresent l occ) := by
  unfold State.movePresent
  split
  · next hst =>
    split <;> exact State.KeepsLaws.action (State.enterLocker_unbound_keeps (by rw [hst]; rfl) rfl rfl)
  · next hst =>
    split
    · exact State.KeepsLaws.action (State.enterLocker_unbound_keeps (by rw [hst]; rfl) rfl rfl)
    · exact .refl s
  · next hst =>
    split
    · exact State.KeepsLaws.action (State.enterLocker_unbound_keeps (by rw [hst]; rfl) rfl rfl)
    · exact .refl s
  · next hst => exact State.startRest_action (by rw [hst]; rfl)
  · exact .refl s
  · split
    · exact s.loadComplete_action l
    · exact State.loadUndone_action rfl rfl
  · split
    · exact .refl s
    · exact State.expire_action rfl rfl
  · split
    · exact s.returnMeal_action l _
    · exact s.collectMeal_action l
  · split
    · exact s.returnMeal_action l _
    · exact s.collectMeal_action l
  · next hst =>
    split
    · exact State.respoil_action (by rw [hst]; rfl)
    · exact State.discard_action (by rw [hst]; rfl)
  · next hst =>
    split
    · exact State.respoil_action (by rw [hst]; rfl)
    · exact State.discard_action (by rw [hst]; rfl)
  · exact .refl s

theorem State.restAfterWalk_action (s : State) (l : LockerId) : s.Action (s.restAfterWalk l) := by
  unfold State.restAfterWalk
  split
  · next hst => exact State.startRest_action (by rw [hst]; rfl)
  · next hst => exact State.startRest_action (by rw [hst]; rfl)
  · exact .refl s

theorem State.purgeFound_action (s : State) (l : LockerId) (rest : Bool) : s.Action (s.purgeFound l rest) := by
  unfold State.purgeFound
  split
  · exact .refl s
  · simp only
    split
    · exact (s.queueAbort_action l true).trans (State.restAfterWalk_action _ l)
    · exact s.queueAbort_action l true

theorem State.reconcilePresent_action {s : State} {l : LockerId} {d : Descriptor} (rating : d.rating ≤ 3) :
    s.Action (s.reconcilePresent l d) := by
  have moved : s.Action (if s.staysForDoor l then (s.writeDescriptor l d).keepForDoor l d
      else (s.writeDescriptor l d).movePresent l d.occupied) := by
    split
    · refine (State.writeDescriptor_action (l := l) rating).trans ?_
      unfold State.keepForDoor
      split
      · exact State.confirmByEvent_action _ l
      · exact .refl _
    · exact (State.writeDescriptor_action rating).trans (State.movePresent_action _ l _)
  unfold State.reconcilePresent
  simp only
  split
  · exact moved.trans (State.purgeFound_action _ l _)
  · exact moved

/-- An entry that ends is FREE, and no locker changes. -/
theorem State.endEntry_records (s : State) (i : Slot) (why : Reason) :
    (s.endEntry i why).entry i = none ∧ (s.endEntry i why).lockers = s.lockers := by
  unfold State.endEntry
  cases hr : s.entry i with
  | none => exact ⟨hr, rfl⟩
  | some r =>
    simp only
    split <;> simp [State.entry]

/-- An entry that expires is FREE, and a locker is as it was or has the state given. -/
theorem State.expire_records (s : State) (i : Slot) (why : Reason) (goes : LockerState) :
    (s.expire i why goes).entry i = none
      ∧ ∀ l, ((s.expire i why goes).locker l).state = goes ∨ (s.expire i why goes).locker l = s.locker l := by
  unfold State.expire
  cases hr : s.entry i with
  | none => exact ⟨hr, fun _ => .inr rfl⟩
  | some r =>
    simp only
    split
    · next l _ =>
      obtain ⟨free, lockers⟩ := (s.enterLocker l goes).endEntry_records i why
      refine ⟨free, fun k => ?_⟩
      have same : ((s.enterLocker l goes).endEntry i why).locker k = (s.enterLocker l goes).locker k :=
        congrArg (fun b => b.get k) lockers
      rw [same, State.locker_enterLocker]
      split
      · exact .inl (Locker.enter_state _ _)
      · exact .inr rfl
    · obtain ⟨free, lockers⟩ := s.endEntry_records i why
      exact ⟨free, fun k => .inr (congrArg (fun b => b.get k) lockers)⟩

/-- A held meal expires and its locker goes to ABSENT, by the entry that names it or, where none does, by itself. -/
theorem State.expireAbsent_action {s : State} {l : LockerId} {i : Slot} (hi : (s.locker l).state.slot = some i) :
    s.Action ((s.expire i .missing .absent).enterLocker l .absent) := by
  obtain ⟨free, lockers⟩ := s.expire_records i .missing .absent
  refine (State.expire_action (s := s) (i := i) (why := .missing) (goes := .absent) rfl rfl).trans ?_
  rcases lockers l with absent | same
  · exact State.KeepsLaws.action (State.enterLocker_unbound_keeps (by rw [absent]; rfl) rfl rfl)
  · refine State.KeepsLaws.action (State.setLocker_stray_keeps (i := i) (fun h => ?_) (.inl rfl)
      fun h => (h.locker l).enter .absent)
    obtain ⟨r, hr, _⟩ := h.1 l i (by rw [same]; exact hi)
    rw [free] at hr; cases hr

theorem State.reconcileAbsent_action (s : State) (l : LockerId) : s.Action (s.reconcileAbsent l) := by
  unfold State.reconcileAbsent
  split
  · exact State.loadUndone_action rfl rfl
  · next hst => exact State.expireAbsent_action (by rw [hst]; rfl)
  · next hst => exact State.expireAbsent_action (by rw [hst]; rfl)
  · next hst => exact State.expireAbsent_action (by rw [hst]; rfl)
  all_goals
    next hst => exact State.KeepsLaws.action (State.enterLocker_unbound_keeps (by rw [hst]; rfl) rfl rfl)

theorem State.absentFrom_action (s : State) (c : Col) (p : Pos) : s.Action (s.absentFrom c p) :=
  State.foldl_action (fun s _ => s.reconcileAbsent_action _) s _

/-! ## Walk steps (10 R188 to R190, 08 R158) -/

/-- The state at the end of a part keeps the laws, and every walk in the queue. -/
theorem State.partState_keeps (s : State) (c : Col) (how : PartEnd) :
    s.KeepsLaws (s.partState c how)
      ∧ (s.QueueLaw → ∀ o ∈ s.ops, o.mode.isWalk = true → o ∈ (s.partState c how).ops) := by
  have acts {t : State} (h : s.Action t) :
      s.KeepsLaws t ∧ (s.QueueLaw → ∀ o ∈ s.ops, o.mode.isWalk = true → o ∈ t.ops) :=
    ⟨h.keeps, fun _ _ ho _ => h.mem_ops ho⟩
  have leaves {t : State} (h : s.Action t) : s.KeepsLaws (t.leaveReach c)
      ∧ (s.QueueLaw → ∀ o ∈ s.ops, o.mode.isWalk = true → o ∈ (t.leaveReach c).ops) :=
    ⟨h.keeps.trans (t.leaveReach_keeps c), fun hq _ ho walk =>
      State.mem_ops_leaveReach (h.keeps.queue hq) (h.mem_ops ho) walk⟩
  have lost := leaves (s.enterLost_action c)
  have service := leaves (s.enterService_action c)
  have returns : s.Action (((s.changeState c s.settlingNow).announce c).settleDue c) :=
    ((s.changeState_action c _).trans (State.announce_action _ c)).trans (State.settleDue_action _ c)
  unfold State.partState
  split
  · exact acts ((s.changeState_action c _).trans (State.announce_action _ c))
  · exact acts returns
  · exact acts returns
  · exact acts (.refl s)
  · exact acts (.refl s)
  · exact acts (.refl s)
  · exact acts (.refl s)
  · exact service
  · obtain ⟨keeps, walks⟩ := leaves ((s.changeState_action c .absent).trans (State.announce_action _ c))
    exact ⟨keeps.trans (State.absentFrom_action _ c 0).keeps, fun hq o ho walk =>
      (State.absentFrom_action _ c 0).mem_ops (walks hq o ho walk)⟩
  · exact acts (.refl s)
  · exact acts (.refl s)
  · exact lost

theorem State.clearPending_action (s : State) (c : Col) :
    s.Action (s.setColumn c { s.column c with walkPending := false }) :=
  State.KeepsLaws.action (State.setColumn_free_keeps rfl rfl rfl (.inl rfl) rfl rfl)

/-- What a part's end does after its column's state. -/
theorem State.endPart_action (s : State) (tag : Nat) (c : Col) (how : PartEnd) :
    (s.partState c how).Action (s.endPart tag c how) := by
  unfold State.endPart
  simp only
  split
  · exact State.offerFetch_action _ c
  · exact (State.clearPending_action _ c).trans (State.offerFetch_action _ c)

theorem State.endPart_keeps (s : State) (tag : Nat) (c : Col) (how : PartEnd) :
    s.KeepsLaws (s.endPart tag c how)
      ∧ (s.QueueLaw → ∀ o ∈ s.ops, o.mode.isWalk = true → o ∈ (s.endPart tag c how).ops) := by
  obtain ⟨keeps, walks⟩ := s.partState_keeps c how
  exact ⟨keeps.trans (s.endPart_action tag c how).keeps, fun hq o ho walk =>
    (s.endPart_action tag c how).mem_ops (walks hq o ho walk)⟩

/-! ## Modes (11 R204, R205) -/

/-- Marks, mode and LINK_LED change in agreement. -/
theorem State.mode_keeps {s t : State}
    (rest : t = { s with mode := t.mode, walkEnded := t.walkEnded, clockMark := t.clockMark, ledLow := t.ledLow })
    (mode : s.ModeLaw → t.ModeLaw) : s.KeepsLaws t := by
  rw [rest] at mode ⊢
  exact ⟨⟨id, id, fun _ => id, id, fun _ => id, fun _ => id, mode, id, id⟩, id⟩

theorem State.changeMode_keeps {s : State} {m : OpMode} (h : m ≠ .starting) : s.KeepsLaws (s.changeMode m) := by
  refine .trans (t := { s with mode := m, ledLow := m == .run }) (State.mode_keeps rfl ?_) (State.queueNotice_keeps _ _)
  rintro ⟨_, _, mark⟩
  exact ⟨by simp, fun k => h k.1, mark⟩

theorem State.noteWalkEnded_keeps (s : State) : s.KeepsLaws s.noteWalkEnded := by
  unfold State.noteWalkEnded State.startIfReady
  split
  · refine .trans (t := { s with walkEnded := true, mode := .run, ledLow := true }) (State.mode_keeps rfl ?_)
      (State.queueNotice_keeps _ _)
    rintro ⟨_, _, mark⟩
    exact ⟨by simp, by simp, mark⟩
  · next early =>
    refine State.mode_keeps rfl ?_
    rintro ⟨led, _, mark⟩
    refine ⟨led, ?_, mark⟩
    simpa using early

/-! ## The end of a walk step -/

/-- A walk goes on at its moved cursor. -/
theorem State.KeepsLaws.moveCursor {s t : State} (k : s.KeepsLaws t) {tag : Nat} (w : Walk)
    (walk : s.QueueLaw → ∃ o ∈ t.ops, o.tag = tag ∧ o.mode.isWalk = true) :
    s.KeepsLaws (t.updateOp tag fun op =>
      { op with mode := .walk w, dest := .column w.here, position := some w.pos, inFlight := false }) := by
  refine k.rewriteOps (fun hq o ho => ?_) (fun h o ho => ?_)
  · split
    · next tag_eq =>
      obtain ⟨q, hq', tag', walk⟩ := walk hq
      cases (k.queue hq).eq_of_tag ho hq' (tag_eq.trans tag'.symm)
      obtain ⟨_, _, roll⟩ := (k.queue hq).2.2 o ho
      refine ⟨rfl, rfl, rfl, fun _ => walk, fun l h => absurd h ?_⟩
      simp [Op.isUnlatch, (roll walk).2]
    · exact .refl o
  · split
    · exact h o ho
    · exact h o ho

theorem State.walkDone_keeps (s : State) (tag : Nat) (cause : WalkCause) : s.KeepsLaws (s.walkDone tag cause) := by
  unfold State.walkDone
  simp only
  refine .trans ?_ (State.removeOp_keeps _ tag)
  split
  · exact (s.queueNotice_keeps _).trans (State.noteWalkEnded_keeps _)
  · exact s.queueNotice_keeps _
  · exact .refl s

theorem State.KeepsLaws.moveWalk {s t : State} (k : s.KeepsLaws t) {tag : Nat} (cause : WalkCause) (next : Option Walk)
    (walk : s.QueueLaw → ∃ o ∈ t.ops, o.tag = tag ∧ o.mode.isWalk = true) :
    s.KeepsLaws (t.moveWalk tag cause next) := by
  unfold State.moveWalk
  split
  · exact k.trans (t.walkDone_keeps tag cause)
  · exact k.moveCursor _ walk

theorem State.walkStep_keeps {s : State} {tag : Nat} (walk : ∃ o ∈ s.ops, o.tag = tag ∧ o.mode.isWalk = true)
    (w : Walk) (result : Option (Flags × List Byte)) : s.KeepsLaws (s.walkStep tag w result) := by
  obtain ⟨o, ho, tag_eq, isWalk⟩ := walk
  have part {t : State} (act : s.Action t) (how : PartEnd) (next : Option Walk) :
      s.KeepsLaws ((t.endPart tag w.here how).moveWalk tag w.cause next) := by
    obtain ⟨keeps, walks⟩ := t.endPart_keeps tag w.here how
    exact (act.keeps.trans keeps).moveWalk _ _ fun hq =>
      ⟨o, walks (act.keeps.queue hq) o (act.mem_ops ho) isWalk, tag_eq, isWalk⟩
  have present (body : List Byte) :=
    State.reconcilePresent_action (s := s) (l := lockerAt w.here w.pos) (descriptorOf_rating body)
  unfold State.walkStep
  simp only
  split
  · exact part (.refl s) _ _
  · split
    · exact part (.refl s) _ _
    · split
      · exact part (s.absentFrom_action _ _) _ _
      · split
        · exact part (present _) _ _
        · exact (present _).keeps.moveWalk _ _ fun _ => ⟨o, (present _).mem_ops ho, tag_eq, isWalk⟩

end Sys2Proof.Machine
end

section
/-! The laws kept by the repetition modes, the exchanges, the column line, the poll and the scheduler. -/

-- The declarations are elaborated one after another, which bounds the memory that their checks take at one time.
set_option Elab.async false

namespace Sys2Proof.Machine

open Config

/-! ## Repetition modes (08 R154 to R159) -/

/-- An operation of the queue ends. -/
theorem State.endOp_keeps {s : State} {op : Op} (ho : op ∈ s.ops) (out : Outcome) : s.KeepsLaws (s.endOp op out) :=
  (State.KeepsLaws.refl s).endOp out fun _ => ⟨op, ho, rfl, rfl⟩

theorem State.KeepsLaws.giveBack {s t : State} (k : s.KeepsLaws t) {o op : Op} (ho : o ∈ t.ops) (like : o.LikeFor op)
    (leftReach : Bool) : s.KeepsLaws (t.giveBack op leftReach) := by
  unfold State.giveBack
  split
  · exact k.endOp _ fun _ => ⟨o, ho, like.tag.symm, like.origin.symm⟩
  · exact k.replaceOp (op := { op with inFlight := false }) ho
      ⟨like.tag, like.origin, like.kind, like.walk, like.unlatch⟩

theorem State.onceResult_keeps {s : State} {op : Op} (ho : op ∈ s.ops) (r : Result) :
    s.KeepsLaws (s.onceResult op r) := by
  unfold State.onceResult
  split
  · split
    · exact State.endOp_keeps ho _
    · exact State.endOp_keeps ho _
  · exact State.endOp_keeps ho _

/-- An operation that goes on as itself, in another repetition than a walk's. -/
theorem Op.likeFor_repeat (op : Op) {m : Mode} (t : Time) (walk : m.isWalk = false) :
    op.LikeFor { op with mode := m, notBefore := t } :=
  ⟨rfl, rfl, rfl, fun h => by rw [walk] at h; (cases h), fun _ h => ⟨h, rfl⟩⟩

theorem State.untilMetResult_keeps {s : State} {op : Op} (ho : op ∈ s.ops) (limit made : Nat) (leftReach : Bool)
    (r : Result) : s.KeepsLaws (s.untilMetResult op limit made leftReach r) := by
  unfold State.untilMetResult
  split
  · exact State.endOp_keeps ho _
  · split
    · exact State.endOp_keeps ho _
    · split
      · exact State.endOp_keeps ho _
      · split
        · exact (State.KeepsLaws.refl s).endOp _ fun _ => ⟨op, ho, rfl, rfl⟩
        · exact (State.KeepsLaws.refl s).giveBack ho (op.likeFor_repeat _ rfl) _

theorem State.untilEmptyResult_keeps {s : State} {op : Op} (ho : op ∈ s.ops) (c : Col) (n : Nat) (leftReach : Bool)
    (r : Result) : s.KeepsLaws (s.untilEmptyResult op c n leftReach r) := by
  unfold State.untilEmptyResult
  split
  · exact State.endOp_keeps ho _
  · next f kind body =>
    have handed := s.handRaw_action c (body.drop 1)
    split
    · exact State.endOp_keeps ho _
    · split
      · exact State.endOp_keeps ho _
      · simp only
        split
        · exact handed.keeps.endOp _ fun _ => ⟨op, handed.mem_ops ho, rfl, rfl⟩
        · exact handed.keeps.giveBack (handed.mem_ops ho) (op.likeFor_repeat _ rfl) _

theorem State.countedResult_keeps {s : State} {op : Op} (ho : op ∈ s.ops) (n : Nat) (leftReach : Bool) (r : Result) :
    s.KeepsLaws (s.countedResult op n leftReach r) := by
  unfold State.countedResult
  split
  · exact State.endOp_keeps ho _
  · split
    · exact State.endOp_keeps ho _
    · simp only
      split
      · exact (State.KeepsLaws.refl s).endOp _ fun _ => ⟨op, ho, rfl, rfl⟩
      · exact (State.KeepsLaws.refl s).giveBack ho (op.likeFor_repeat _ rfl) _

theorem State.applyMode_keeps {s : State} {op : Op} (ho : op ∈ s.ops) (c : Col) (leftReach : Bool) (r : Result) :
    s.KeepsLaws (s.applyMode op c leftReach r) := by
  unfold State.applyMode
  split
  case h_1 => exact State.onceResult_keeps ho r
  case h_2 => exact State.untilMetResult_keeps ho _ _ _ r
  case h_3 => exact State.untilEmptyResult_keeps ho c _ _ r
  case h_4 => exact State.countedResult_keeps ho _ _ r
  case h_5 w mode =>
    have walk : ∃ o ∈ s.ops, o.tag = op.tag ∧ o.mode.isWalk = true := ⟨op, ho, rfl, by rw [mode]; rfl⟩
    split
    · exact State.walkStep_keeps walk w _
    · exact State.walkStep_keeps walk w _

/-! ## The end of an exchange, and tries (08 R150, R151, R160) -/

theorem State.setQuiet_keeps (s : State) (c : Col) : s.KeepsLaws (s.setQuiet c) :=
  State.setColumn_free_keeps rfl rfl rfl (.inl rfl) rfl rfl

theorem State.clearLine_keeps (s : State) : s.KeepsLaws s.clearLine := State.free_keeps rfl

theorem State.quietLine_keeps (s : State) (c : Col) : s.KeepsLaws (s.clearLine.setQuiet c) :=
  s.clearLine_keeps.trans (State.setQuiet_keeps _ c)

theorem State.mem_ops_of_opOf {s : State} {tag : Nat} {op : Op} (h : s.opOf tag = some op) : op ∈ s.ops :=
  List.mem_of_find?_eq_some h

theorem State.reportResult_keeps (s : State) (c : Col) (r : Result) : s.KeepsLaws (s.reportResult c r) := by
  unfold State.reportResult
  split
  · exact s.answerOf_keeps c
  · exact s.silenceOf_keeps c

theorem State.endExchange_keeps (s : State) (x : Exchange) (c : Col) (r : Result) :
    s.KeepsLaws (s.endExchange x c r) := by
  unfold State.endExchange
  split
  · exact s.quietLine_keeps c
  · have quiet : s.KeepsLaws ((s.reportResult c r).clearLine.setQuiet c) :=
      (s.reportResult_keeps c r).trans (State.quietLine_keeps _ c)
    simp only
    split
    · exact quiet
    · next found => exact quiet.trans (State.applyMode_keeps (State.mem_ops_of_opOf found) c _ r)

theorem State.countSilent_keeps (s : State) : s.KeepsLaws s.countSilent := s.counters_keeps _

theorem State.countColumnDiscard_keeps (s : State) : s.KeepsLaws s.countColumnDiscard := s.counters_keeps _

theorem State.endTry_keeps (s : State) (x : Exchange) (c : Col) : s.KeepsLaws (s.endTry x c) := by
  unfold State.endTry
  split
  · exact s.quietLine_keeps c
  · split
    · exact State.free_keeps rfl
    · exact s.countSilent_keeps.trans (State.endExchange_keeps _ x c .silent)

theorem State.tryTimeout_keeps (s : State) : s.KeepsLaws s.tryTimeout := by
  unfold State.tryTimeout
  split
  · exact .refl s
  · split
    · simp only
      split
      · exact (s.reach_keeps _).trans (State.free_keeps rfl)
      · exact (s.reach_keeps _).trans (State.endTry_keeps _ _ _)
    · exact .refl s

theorem State.retryNow_keeps (s : State) : s.KeepsLaws s.retryNow := by
  unfold State.retryNow
  split
  · exact .refl s
  · split
    · exact State.free_keeps rfl
    all_goals exact .refl s

/-! ## Characters on the column line (07 R135) -/

theorem State.corruptFrame_keeps (s : State) (x : Exchange) (c : Col) : s.KeepsLaws (s.corruptFrame x c) := by
  unfold State.corruptFrame
  simp only
  split
  · exact s.countColumnDiscard_keeps.trans (State.endTry_keeps _ x c)
  · exact s.countColumnDiscard_keeps

theorem State.columnFound_keeps (s : State) (e : RxEvent) : s.KeepsLaws (s.columnFound e) := by
  unfold State.columnFound
  split
  · exact .refl s
  · split
    · exact .refl s
    · split
      · split
        · exact s.corruptFrame_keeps _ _
        · split
          · exact s.corruptFrame_keeps _ _
          · exact s.endExchange_keeps _ _ _
      · exact .refl s

theorem State.columnGap_keeps (s : State) : s.KeepsLaws s.columnGap := by
  unfold State.columnGap
  split
  · exact .refl s
  · exact (State.free_keeps rfl).trans (State.columnFound_keeps _ _)

theorem State.columnChar_keeps (s : State) (ch : LineChar) : s.KeepsLaws (s.columnChar ch) := by
  have lapsed : s.KeepsLaws (if s.columnRx.lapsed .column ch.start then s.columnGap else s) := by
    split
    · exact s.columnGap_keeps
    · exact .refl s
  unfold State.columnChar
  generalize (if s.columnRx.lapsed .column ch.start then s.columnGap else s) = s1 at lapsed ⊢
  refine (lapsed.trans (s1.reach_keeps (stopBit .column ch))).trans ?_
  simp only
  split
  · split
    · exact State.free_keeps rfl
    · exact (State.free_keeps rfl).trans (State.columnFound_keeps _ _)
  · exact .refl _

theorem State.columnChars_keeps (s : State) (chars : List LineChar) : s.KeepsLaws (s.columnChars chars) :=
  State.foldl_keeps State.columnChar_keeps s chars

/-! ## Broadcasts and the poll (08 R152, R153; 10 R180) -/

theorem State.broadcastSent_keeps (s : State) : s.KeepsLaws s.broadcastSent := by
  unfold State.broadcastSent
  split
  · exact .refl s
  · next x _ =>
    have sent : s.KeepsLaws (s.reach x.requestEnd).clearLine := (s.reach_keeps _).trans (State.clearLine_keeps _)
    split
    · simp only
      split
      · exact sent
      · next found =>
        split
        · exact sent
        · exact sent.trans (State.endOp_keeps (State.mem_ops_of_opOf found) _)
    · exact .refl s

theorem State.endSlot_keeps (s : State) (c : Col) (heard : List LineChar) : s.KeepsLaws (s.endSlot c heard) := by
  unfold State.endSlot
  split
  · exact s.takeSlot_keeps c _
  · exact (State.foldl_keeps (fun s _ => s.countColumnDiscard_keeps) s heard).trans (State.takeSlot_keeps _ c none)

theorem State.pollEnded_keeps (s : State) (chars : List LineChar) : s.KeepsLaws (s.pollEnded chars) := by
  unfold State.pollEnded
  split
  · exact .refl s
  · next x _ =>
    have ended : s.KeepsLaws (s.reach (x.requestEnd + pollSlots)).clearLine :=
      (s.reach_keeps _).trans (State.clearLine_keeps _)
    split
    · simp only
      split
      · exact ended
      · have slots := State.foldl_keeps (fun (s : State) c => s.endSlot_keeps c (slotChars x.requestEnd c chars))
          (s.reach (x.requestEnd + pollSlots)).clearLine allCols
        exact (ended.trans slots).trans (State.removeOp_keeps _ x.tag)
    · exact .refl s

/-- The POLL takes entry 0, which no other operation holds. -/
theorem State.queuePoll_keeps (s : State) : s.KeepsLaws s.queuePoll := by
  unfold State.queuePoll
  split
  · exact .refl s
  · next idle =>
    have fresh : ∀ o ∈ s.ops, o.tag ≠ 0 := by
      simpa [State.pollOutstanding] using idle
    have unlatch (l : LockerId) : (pollOp s.now).isUnlatch l = false := by
      simp [pollOp, Op.blank, Op.isUnlatch]
    have pass : (pollOp s.now).origin ≠ .pass := by simp [pollOp, Op.blank]
    refine ⟨⟨id, id, fun _ => id, fun h => ?_, fun _ h l => ?_, fun _ h => ?_, id, fun h op hop origin => ?_, id⟩, id⟩
    · rw [State.queueLaw_iff] at h ⊢
      obtain ⟨distinct, bounds⟩ := h
      refine ⟨?_, List.forall_mem_append.mpr ⟨bounds, ?_⟩⟩
      · rw [List.map_append]
        refine List.nodup_append'.mpr ⟨distinct, by simp, ?_⟩
        simpa [pollOp, Op.blank] using fresh
      · simp [pollOp, Op.blank, Mode.isWalk]
    · obtain ⟨count, side⟩ := h l
      simp only [List.filter_append, List.filter_singleton, unlatch, Bool.cond_false, List.append_nil]
      refine ⟨count, fun op hop un => ?_⟩
      rcases List.mem_append.mp hop with old | new
      · exact side op old un
      · cases List.mem_singleton.mp new
        rw [unlatch] at un
        cases un
    · simpa [State.PortLaw, State.passOutstanding, List.countP_append, pass] using h
    · rcases List.mem_append.mp hop with old | new
      · exact h op old origin
      · cases List.mem_singleton.mp new
        exact absurd origin pass

theorem State.clearOwed_action (s : State) (c : Col) :
    s.Action (s.setColumn c { s.column c with walkOwed := false }) :=
  State.KeepsLaws.action (State.setColumn_free_keeps rfl rfl rfl (.inl rfl) rfl rfl)

theorem State.queueOwed_action (s : State) : s.Action s.queueOwed := by
  refine State.foldl_action (fun s c => ?_) s allCols
  split
  · exact (s.clearOwed_action c).trans (State.walkOp_action _ c [] _)
  · exact .refl s

theorem State.pollExpiry_keeps (s : State) : s.KeepsLaws s.pollExpiry :=
  .trans (t := { s.reach s.pollNext with pollNext := s.pollNext + pollPeriod }) (State.free_keeps rfl)
    ((State.queuePoll_keeps _).trans (State.queueOwed_action _).keeps)

/-! ## The scheduler (09 R172 to R175) -/

theorem State.chooseFrom_streak {s : State} {ops : List Op} {t : Time} {op : Op} {streak : Nat}
    (h : s.chooseFrom ops t = some (op, streak)) : streak ≤ 4 := by
  unfold State.chooseFrom at h
  simp only at h
  split at h
  · split at h
    · cases h; omega
    · cases h; omega
  · cases h; omega
  · cases h; omega
  · cases h

theorem State.setStreak_keeps (s : State) {n : Nat} (h : n ≤ 4) : s.KeepsLaws { s with streak := n } where
  keys := id
  binding := id
  close _ := id
  queue := id
  door _ := id
  port _ := id
  mode := id
  pass := id
  range := fun ⟨columns, lockers, entries, classes, court, gap, _⟩ => ⟨columns, lockers, entries, classes, court, gap, h⟩
  budget := id

/-- The operation of a tag is marked as in flight. -/
theorem State.markInFlight_keeps (s : State) (tag : Nat) :
    s.KeepsLaws (s.updateOp tag fun o => { o with inFlight := true }) := by
  refine (State.KeepsLaws.refl s).rewriteOps (fun _ o _ => ?_) (fun h o ho => ?_)
  · split
    · exact ⟨rfl, rfl, rfl, id, fun _ h => ⟨h, rfl⟩⟩
    · exact .refl o
  · split
    · exact h o ho
    · exact h o ho

theorem State.startExchange_keeps (s : State) (op : Op) : s.KeepsLaws (s.startExchange op) :=
  (s.markInFlight_keeps op.tag).trans (State.free_keeps rfl)

theorem State.grant_keeps (fuel : Nat) (s : State) (left : List Op) (paused : List Nat) :
    s.KeepsLaws (State.grant fuel s left paused) := by
  induction fuel generalizing left paused with
  | zero => exact s.removeOps_keeps paused
  | succ n ih =>
    unfold State.grant
    split
    · exact s.removeOps_keeps paused
    · next chosen =>
      split
      · exact ih _ _
      · exact ((s.setStreak_keeps (State.chooseFrom_streak chosen)).trans (State.startExchange_keeps _ _)).trans
          (State.removeOps_keeps _ paused)

theorem State.portGrant_keeps (s : State) : s.KeepsLaws s.portGrant := by
  unfold State.portGrant
  split
  · exact .refl s
  · exact (s.reach_keeps _).trans (State.grant_keeps _ _ _ _)

end Sys2Proof.Machine
end

section
/-! The laws kept by the heat period and by CLOCK-SET. -/

-- The declarations are elaborated one after another, which bounds the memory that their checks take at one time.
set_option Elab.async false

namespace Sys2Proof.Machine

open Config

/-! ## Units left and granted (05 R103) -/

/-- A fold whose every step leaves a field as it is leaves it as it is. -/
theorem foldl_fixes {α β γ : Type} {f : β → α → β} (g : β → γ) (h : ∀ b a, g (f b a) = g b) (b : β) (as : List α) :
    g (as.foldl f b) = g b := by
  induction as generalizing b with
  | nil => rfl
  | cons a as ih => exact (ih (f b a)).trans (h b a)

/-- A property that every step of a fold keeps. -/
theorem foldl_preserves {α β : Type} {f : β → α → β} {P : β → Prop} (h : ∀ b a, P b → P (f b a)) {b : β} (hb : P b)
    (as : List α) : P (as.foldl f b) := by
  induction as generalizing b with
  | nil => exact hb
  | cons a as ih => exact ih (h b a hb)

theorem sum_set_le (ns : List Nat) (i n : Nat) : (ns.set i n).sum ≤ ns.sum + n := by
  induction ns generalizing i with
  | nil => simp
  | cons m ns ih =>
    cases i with
    | zero => simp only [List.set_cons_zero, List.sum_cons]; omega
    | succ i =>
      have := ih i
      simp only [List.set_cons_succ, List.sum_cons]
      omega

/-- The units granted and the units left stay within the budget; where the demands are `bounded`, so is each grant. -/
def Share.Within (budget : Nat) (bounded : Prop) (h : Share) : Prop :=
  h.granted.cells.sum + h.left ≤ budget ∧ (bounded → ∀ p, h.granted.get p ≤ 3)

theorem Share.Within.grant {budget : Nat} {bounded : Prop} {h : Share} (within : h.Within budget bounded) (p : Pos) {n : Nat} (demand : bounded → n ≤ 3) :
    (h.grant p n).Within budget bounded := by
  obtain ⟨sum, each⟩ := within
  unfold Share.grant
  split
  · refine ⟨?_, fun hb q => ?_⟩
    · have := sum_set_le h.granted.cells p.val n
      simp only [Bank.set]
      omega
    · simp only [Bank.get_set]
      split
      · exact demand hb
      · exact each hb q
  · exact ⟨sum, each⟩

/-- The demands of every locker are in range. -/
def State.DemandsInRange (s : State) : Prop := ∀ l, (s.locker l).demand ≤ 3

theorem State.grantPurges_within {s : State} {budget : Nat} {bounded : Prop} {h : Share} (within : h.Within budget bounded) (c : Col) :
    (s.grantPurges c h).Within budget bounded := by
  refine foldl_preserves (P := Share.Within budget bounded) (fun h p within => ?_) within _
  simp only
  split
  · exact within.grant p fun _ => le_rfl
  · exact within

theorem State.grantStarved_within {s : State} {budget : Nat} {bounded : Prop} (demands : bounded → s.DemandsInRange) {h : Share}
    (within : h.Within budget bounded) (c : Col) : (s.grantStarved c h).Within budget bounded := by
  refine foldl_preserves (P := Share.Within budget bounded) (fun h p within => ?_) within _
  simp only
  split
  · exact within.grant p fun hb => demands hb _
  · exact within

theorem State.grantRound_within {s : State} {budget : Nat} {bounded : Prop} (demands : bounded → s.DemandsInRange) {h : Share}
    (within : h.Within budget bounded) (c : Col) : (s.grantRound c h).Within budget bounded := by
  refine foldl_preserves (P := Share.Within budget bounded) (fun h p within => ?_) within _
  simp only
  split
  · exact within.grant p fun hb => demands hb _
  · exact within

theorem State.grantStart_share (s : State) (c : Col) (h : Share) (p : Pos) :
    (s.grantStart c h p).2 = h ∨ (s.grantStart c h p).2 = h.grant p 3 := by
  unfold State.grantStart
  simp only
  split
  · exact .inr rfl
  · exact .inl rfl

theorem State.grantStart_action (s : State) (c : Col) (h : Share) (p : Pos) : s.Action (s.grantStart c h p).1 := by
  unfold State.grantStart
  simp only
  split
  · exact State.purgeOp_action _ (by decide)
  · exact .refl s

theorem State.grantStarts_within {s : State} {budget : Nat} {bounded : Prop} {h : Share} (within : h.Within budget bounded) (c : Col) :
    (s.grantStarts c h).2.Within budget bounded := by
  unfold State.grantStarts
  split
  · refine foldl_preserves (P := fun x : State × Share => x.2.Within budget bounded) (fun x p within => ?_) within _
    rcases x.1.grantStart_share c x.2 p with same | more
    · simpa only [same] using within
    · simpa only [more] using within.grant p fun _ => le_rfl
  · exact within

theorem State.grantStarts_action (s : State) (c : Col) (h : Share) : s.Action (s.grantStarts c h).1 := by
  unfold State.grantStarts
  split
  · exact foldl_preserves (P := fun x : State × Share => s.Action x.1)
      (fun x p so => so.trans (x.1.grantStart_action c x.2 p)) (.refl s) _
  · exact .refl s

theorem State.grantStart_columns (s : State) (c : Col) (h : Share) (p : Pos) :
    (s.grantStart c h p).1.columns = s.columns := by
  unfold State.grantStart
  simp only
  split
  · unfold State.enqueue
    split <;> rfl
  · rfl

theorem State.grantStarts_columns (s : State) (c : Col) (h : Share) : (s.grantStarts c h).1.columns = s.columns := by
  unfold State.grantStarts
  split
  · exact foldl_fixes (f := fun (x : State × Share) p => x.1.grantStart c x.2 p) (fun x => x.1.columns)
      (fun x p => x.1.grantStart_columns c x.2 p) (s, h) allPos
  · rfl

/-! ## Demands, refusals and the budget (05 R102, R104) -/

theorem State.RangeLaw.demandOf_le {s : State} (range : s.RangeLaw) (l : LockerId) : s.demandOf l ≤ 3 := by
  unfold State.demandOf
  simp only
  split
  · split
    · exact Nat.zero_le _
    · split
      · exact State.classOf_units range _
      · split
        · exact State.classOf_units range _
        · exact Nat.zero_le _
  · split
    · exact Nat.zero_le _
    · exact State.classOf_units range _
  · exact le_rfl
  · split
    · exact le_rfl
    · exact Nat.zero_le _
  all_goals exact Nat.zero_le _

theorem State.setDemand_keeps (s : State) (l : LockerId) :
    s.KeepsLaws (s.setLocker l { s.locker l with demand := s.demandOf l }) :=
  State.setLocker_state_keeps rfl fun range => ⟨(range.locker l).1, range.demandOf_le l, (range.locker l).2.2⟩

theorem State.collectDemands_keeps (s : State) (c : Col) : s.KeepsLaws (s.collectDemands c) := by
  refine State.foldl_keeps (fun s p => ?_) s _
  simp only
  split
  · exact .refl s
  · exact s.setDemand_keeps _

theorem State.collectDemands_columns (s : State) (c : Col) : (s.collectDemands c).columns = s.columns := by
  refine foldl_fixes State.columns (fun s p => ?_) s _
  simp only
  split <;> rfl

theorem State.countRefusals_keeps (s : State) (c : Col) (granted : Bank Nat 8) :
    s.KeepsLaws (s.countRefusals c granted) := by
  refine State.foldl_keeps (fun s p => ?_) s _
  refine State.setLocker_state_keeps rfl fun range => ?_
  obtain ⟨rating, demand, _⟩ := range.locker (lockerAt c p)
  refine ⟨rating, demand, ?_⟩
  simp only
  split
  · exact Nat.zero_le _
  · exact Nat.min_le_left _ _

theorem State.takeBudget_keeps (s : State) (c : Col) : s.KeepsButBudget (s.takeBudget c) := by
  refine State.setColumn_keepsButBudget fun range => ?_
  obtain ⟨silence, wrong, lockout, low, high, pending, granted⟩ := range.column c
  obtain ⟨lower, upper⟩ : 3 ≤ (s.column c).pendingBudget.getD (s.column c).budget
      ∧ (s.column c).pendingBudget.getD (s.column c).budget ≤ 24 := by
    cases h : (s.column c).pendingBudget with
    | none => exact ⟨low, high⟩
    | some b => exact pending b h
  exact ⟨silence, wrong, lockout, lower, upper, by simp, granted⟩

/-! ## The HEAT-SET of a period (05 R105) -/

theorem State.heatBody_keeps (s : State) (c : Col) (body : List Byte) :
    s.KeepsLaws { s with ops := s.ops.map fun op => if op.isWaitingHeat c then { op with body := body } else op } := by
  refine (State.KeepsLaws.refl s).rewriteOps (fun _ o _ => ?_) (fun h o ho => ?_)
  · split
    · exact ⟨rfl, rfl, rfl, id, fun _ h => ⟨h, rfl⟩⟩
    · exact .refl o
  · split
    · exact h o ho
    · exact h o ho

theorem State.sendHeat_keeps (s : State) (c : Col) (granted : Bank Nat 8) : s.KeepsLaws (s.sendHeat c granted) := by
  unfold State.sendHeat
  split
  · split
    · exact (s.heatBody_keeps c _).trans (State.blindPeriod_action _ c).keeps
    · split
      · exact State.enqueue_keeps
          (State.mayQueue_plain rfl (by simp [heatOp, Op.blank]) (by simp [heatOp, Op.blank]) (by simp [heatOp, Op.blank]))
      · exact (s.blindPeriod_action c).keeps
  · exact (s.blindPeriod_action c).keeps

/-! ## The heat period (05 R101 to R106) -/

theorem State.grantUnits_action (s : State) (c : Col) : s.Action (s.grantUnits c).1 := s.grantStarts_action c _

theorem State.grantUnits_columns (s : State) (c : Col) : (s.grantUnits c).1.columns = s.columns :=
  s.grantStarts_columns c _

theorem State.grantUnits_within (s : State) (c : Col) : (s.grantUnits c).2.Within (s.column c).budget s.RangeLaw := by
  have demands (range : s.RangeLaw) : s.DemandsInRange := fun l => (range.locker l).2.1
  refine State.grantStarts_within (State.grantRound_within demands (State.grantStarved_within demands
    (State.grantPurges_within ⟨?_, fun _ p => ?_⟩ c) c) c) c
  · simp [fill_zero_sum]
  · simp

theorem State.setHeatNext_keeps (s : State) (c : Col) (t : Option Time) :
    s.KeepsLaws (s.setColumn c { s.column c with heatNext := t }) :=
  State.setColumn_free_keeps rfl rfl rfl (.inl rfl) rfl rfl

/-- The grants of a period replace those of the last, within the budget taken into use with them. -/
theorem State.KeepsButBudget.recordGrants {s u : State} {c : Col} {h : Share} (k : s.KeepsButBudget u)
    (within : h.Within (u.column c).budget s.RangeLaw) (others : ∀ d, c ≠ d → u.column d = s.column d) :
    s.KeepsLaws (u.recordGrants c h) := by
  refine ⟨{ k with range := fun range => ?_ }, fun budget d => ?_⟩
  · refine (State.setColumn_keepsButBudget fun inRange => ?_).range (k.range range)
    obtain ⟨silence, wrong, lockout, low, high, pending, _⟩ := inRange.column c
    exact ⟨silence, wrong, lockout, low, high, pending, within.2 range⟩
  · simp only [State.recordGrants, State.column_setColumn]
    split
    · exact (Nat.le_add_right _ _).trans within.1
    · next other =>
      rw [others d other]
      exact budget d

theorem State.takeBudget_other (s : State) {c d : Col} (h : c ≠ d) : (s.takeBudget c).column d = s.column d := by
  rw [State.takeBudget, State.column_setColumn, if_neg h]

theorem State.column_of_columns {s t : State} (h : t.columns = s.columns) (c : Col) : t.column c = s.column c := by
  rw [State.column, h]
  rfl

theorem State.sharePeriod_keeps {s : State} {c : Col} {u : State} {h : Share}
    (shared : ((s.takeBudget c).collectDemands c).grantUnits c = (u, h)) : s.KeepsLaws (u.recordGrants c h) := by
  have collected := (s.takeBudget_keeps c).trans (State.collectDemands_keeps _ c).toKeepsButBudget
  have same := State.column_of_columns (State.collectDemands_columns (s.takeBudget c) c)
  generalize (s.takeBudget c).collectDemands c = v at *
  have action := v.grantUnits_action c
  have columns := State.column_of_columns (v.grantUnits_columns c)
  have within := v.grantUnits_within c
  rw [shared] at action columns within
  refine (collected.trans action.keeps.toKeepsButBudget).recordGrants ?_ fun d other => ?_
  · rw [columns]
    exact ⟨within.1, within.2 ∘ collected.range⟩
  · rw [columns, same, s.takeBudget_other other]

theorem State.heatExpiry_keeps (s : State) (c : Col) : s.KeepsLaws (s.heatExpiry c) := by
  unfold State.heatExpiry
  split
  · exact .refl s
  · next t _ =>
    have timed := (s.reach_keeps t).trans (State.setHeatNext_keeps _ c (some (t + heatPeriod)))
    simp only
    generalize (s.reach t).setColumn c _ = v at timed ⊢
    cases shared : ((v.takeBudget c).collectDemands c).grantUnits c with
    | mk u h =>
      have recorded := timed.trans (State.sharePeriod_keeps shared)
      exact (recorded.trans (State.countRefusals_keeps _ c _)).trans (State.sendHeat_keeps _ c _)

end Sys2Proof.Machine
end

section
/-! The laws kept by CLOCK-SET and by the requests of the Management Interpreter. -/

-- The declarations are elaborated one after another, which bounds the memory that their checks take at one time.
set_option Elab.async false

namespace Sys2Proof.Machine

open Config

/-! ## The ranges of numbers in a body (07 R129, R139) -/

theorem beNat_append_lt {bs : List Byte} {acc bound : Nat} (h : acc < bound) :
    bs.foldl (fun acc b => acc * 256 + b.toNat) acc < bound * 256 ^ bs.length := by
  induction bs generalizing acc bound with
  | nil => simpa using h
  | cons b bs ih =>
    have byte := b.isLt
    have := ih (acc := acc * 256 + b.toNat) (bound := bound * 256) (by omega)
    rw [List.foldl_cons, List.length_cons, Nat.pow_succ']
    rwa [Nat.mul_assoc] at this

theorem beNat_lt (bs : List Byte) : beNat bs < 256 ^ bs.length := by
  simpa [beNat] using beNat_append_lt (bs := bs) (acc := 0) (bound := 1) one_pos

theorem natAt_lt (bs : List Byte) (off len : Nat) : natAt bs off len < 256 ^ len :=
  (beNat_lt _).trans_le (Nat.pow_le_pow_right (by decide) (by simp [fieldAt]))

theorem natAt_two_le (bs : List Byte) (off : Nat) : natAt bs off 2 ≤ 65535 := by
  have := natAt_lt bs off 2
  omega

theorem natAt_four_le (bs : List Byte) (off : Nat) : natAt bs off 4 ≤ maxCourt := by
  have := natAt_lt bs off 4
  simp only [maxCourt]
  omega

theorem numberReq_le {body : List Byte} {v : Nat} (h : numberReq 4 body = some v) : v ≤ maxCourt := by
  unfold numberReq at h
  split at h
  · cases h
    exact natAt_four_le body 0
  · cases h

theorem digitInto_lt {acc : Option Nat} {d n bound : Nat} (h : digitInto acc d = some n)
    (low : ∀ m, acc = some m → m < bound) : n < bound * 10 := by
  unfold digitInto at h
  split at h
  · next m =>
    have := low m rfl
    split at h
    · cases h
      omega
    · cases h
  · cases h

theorem codeOf_append_lt {bs : List Byte} {acc : Option Nat} {n bound : Nat} (low : ∀ m, acc = some m → m < bound)
    (h : bs.foldl (fun acc b => digitInto (digitInto acc (b.toNat / 16)) (b.toNat % 16)) acc = some n) :
    n < bound * 100 ^ bs.length := by
  induction bs generalizing acc bound with
  | nil => simpa using low n h
  | cons b bs ih =>
    have := ih (bound := bound * 10 * 10) (fun m hm => digitInto_lt hm fun k hk => digitInto_lt hk low) h
    rw [List.length_cons, Nat.pow_succ']
    rwa [Nat.mul_assoc, Nat.mul_assoc, ← Nat.mul_assoc 10 10] at this

/-- A code of three bytes has six digits. -/
theorem codeOf_le {bs : List Byte} {off n : Nat} (h : codeOf (fieldAt bs off 3) = some n) : n ≤ 999999 := by
  have below := codeOf_append_lt (bound := 1) (fun m hm => by cases hm; exact one_pos) h
  have short : 100 ^ (fieldAt bs off 3).length ≤ 100 ^ 3 := Nat.pow_le_pow_right (by decide) (by simp [fieldAt])
  omega

/-! ## CLOCK-SET (01 R9, R10) -/

theorem State.takeDeadline_action (s : State) (d : Deadline) : s.Action (s.takeDeadline d) := by
  cases d with
  | window i => exact s.windowDue_action i
  | hold l => exact s.holdDue_action l
  | lockout c => exact s.lockoutDue_action c
  | settle c => exact s.settleDue_action c
  | stall l => exact s.stallDue_action l
  | rest l => exact s.restDue_action l

theorem State.choices_action (s : State) (n : Nat) : s.Action { s with choices := n } :=
  State.KeepsLaws.action (State.free_keeps rfl)

theorem State.takeDeadlines_action (fuel : Nat) (s : State) (ds : List Deadline) :
    s.Action (State.takeDeadlines fuel s ds) := by
  induction fuel generalizing s ds with
  | zero => exact .refl s
  | succ n ih =>
    match ds with
    | [] => exact .refl s
    | [d] => exact s.takeDeadline_action d
    | d :: e :: rest => exact ((s.choices_action _).trans (State.takeDeadline_action _ _)).trans (ih _ _)

/-- Lockers and columns change in nothing that a law looks at, and court time and mode agree. -/
theorem State.clock_keeps {s t : State}
    (rest : t = { s with court := t.court, courtNext := t.courtNext, lockers := t.lockers, columns := t.columns
                         clockMark := t.clockMark, mode := t.mode, ledLow := t.ledLow })
    (hold : ∀ l, (s.locker l).state.SameHold (t.locker l).state ∧ (t.locker l).state.SameHold (s.locker l).state
      ∧ (t.locker l).state.sideInUse = (s.locker l).state.sideInUse ∧ ((s.locker l).inRange → (t.locker l).inRange))
    (column : ∀ c, (t.column c).granted = (s.column c).granted ∧ (t.column c).budget = (s.column c).budget
      ∧ ((s.column c).inRange → (t.column c).inRange))
    (mode : s.ModeLaw → t.ModeLaw) (court : ∀ v, t.court = some v → v ≤ maxCourt) : s.KeepsLaws t := by
  have entry (i : Slot) : t.entry i = s.entry i := by rw [State.entry, rest]; rfl
  have ops : t.ops = s.ops := by rw [rest]
  exact {
    keys := by simp only [State.UniqueKeys, entry]; exact id
    binding := by
      rintro ⟨bound, names⟩
      refine ⟨fun l i hi => ?_, fun i r l hr hl => ?_⟩
      · obtain ⟨same, _⟩ := hold l
        obtain ⟨r, hr, fits⟩ := bound l i (same.slot ▸ hi)
        exact ⟨r, (entry i).trans hr, same.fits _ _ fits⟩
      · rw [(hold l).1.slot]
        exact names i r l ((entry i).symm.trans hr) hl
    close := by
      intro _ close l i m r hm hr
      obtain ⟨n, hn, same⟩ := (hold l).1.meal i m hm
      rw [← same]
      exact close l i n r hn ((entry i).symm.trans hr)
    queue := by simp only [State.QueueLaw, ops]; exact id
    door := by
      intro _ door l
      obtain ⟨count, side⟩ := door l
      rw [ops, (hold l).2.2.1]
      exact ⟨count, side⟩
    port := by
      intro _ port
      rw [rest]
      exact port
    mode := mode
    pass := by simp only [State.PassLaw, ops]; exact id
    range := by
      rintro ⟨columns, lockers, entries, classes, _, counts⟩
      refine ⟨fun c => (column c).2.2 (columns c), fun l => (hold l).2.2.2 (lockers l), ?_, ?_, court, ?_⟩
      · simpa only [entry] using entries
      · rw [rest]
        exact classes
      · rw [rest]
        exact counts
    budget := by
      intro budget c
      obtain ⟨granted, same, _⟩ := column c
      rw [granted, same]
      exact budget c }

theorem fillLocker_sameHold (t : Nat) (lk : Locker) : lk.state.SameHold (fillLocker t lk).state
    ∧ (fillLocker t lk).state.SameHold lk.state ∧ (fillLocker t lk).state.sideInUse = lk.state.sideInUse
    ∧ (lk.inRange → (fillLocker t lk).inRange) := by
  unfold fillLocker
  split
  · next purging =>
    rw [purging]
    exact ⟨.unbound rfl rfl, .unbound rfl rfl, rfl, id⟩
  · next resting =>
    rw [resting]
    exact ⟨.unbound rfl rfl, .unbound rfl rfl, rfl, id⟩
  · exact ⟨.refl _, .refl _, rfl, id⟩

theorem fillColumn_fields (t : Nat) (col : Column) : (fillColumn t col).granted = col.granted
    ∧ (fillColumn t col).budget = col.budget ∧ (col.inRange → (fillColumn t col).inRange) := by
  unfold fillColumn
  split
  · exact ⟨rfl, rfl, id⟩
  · exact ⟨rfl, rfl, id⟩

/-- The tables once the deadlines held as UNSET are written. -/
def State.filled (s : State) (t : Nat) : State :=
  { s with court := some t, courtNext := s.now + ms 1000, lockers := s.lockers.map (fillLocker t)
           columns := s.columns.map (fillColumn t), clockMark := true }

theorem State.filled_locker (s : State) (t : Nat) (l : LockerId) : (s.filled t).locker l = fillLocker t (s.locker l) :=
  Bank.get_map _ _ _

theorem State.filled_column (s : State) (t : Nat) (c : Col) : (s.filled t).column c = fillColumn t (s.column c) :=
  Bank.get_map _ _ _

theorem State.writeCourt_keeps {s : State} {t : Nat} (high : t ≤ maxCourt) : s.KeepsLaws (s.writeCourt t) := by
  have holds (l : LockerId) := fillLocker_sameHold t (s.locker l)
  have columns (c : Col) := fillColumn_fields t (s.column c)
  simp only [← State.filled_locker, ← State.filled_column] at holds columns
  have court : ∀ v, some t = some v → v ≤ maxCourt := by
    rintro _ ⟨⟩
    exact high
  unfold State.writeCourt
  simp only
  split
  · next isSet =>
    refine State.clock_keeps rfl (fun l => ⟨.refl _, .refl _, rfl, id⟩) (fun c => ⟨rfl, rfl, id⟩) ?_ court
    rintro ⟨led, starts, mark⟩
    exact ⟨led, starts, by simpa [isSet] using mark⟩
  · show s.KeepsLaws (s.filled t).startIfReady
    unfold State.startIfReady
    split
    · refine .trans (t := { s.filled t with mode := .run, ledLow := true })
        (State.clock_keeps rfl holds columns (fun _ => ?_) court) (State.queueNotice_keeps _ _)
      exact ⟨by simp, by simp, rfl⟩
    · next early =>
      refine State.clock_keeps rfl holds columns ?_ court
      rintro ⟨led, _, _⟩
      refine ⟨led, ?_, rfl⟩
      simpa [and_assoc] using early

/-- A reply entry that is free stays free. -/
def State.KeepsSpare (s t : State) : Prop := s.ReplySpare → t.ReplySpare

theorem State.queueNotice_spare (s : State) (n : Notice) : s.KeepsSpare (s.queueNotice n) :=
  (s.queueNotice_action n).replySpare

theorem State.writeCourt_spare (s : State) (t : Nat) : s.KeepsSpare (s.writeCourt t) := by
  unfold State.writeCourt
  simp only
  split
  · exact id
  · unfold State.noteClockSet State.startIfReady
    split
    · exact fun spare => State.queueNotice_spare _ _ spare
    · exact id

theorem State.setCourt_action (s : State) (t : Nat) : (s.writeCourt t).Action (s.setCourt t) := by
  unfold State.setCourt
  simp only
  split
  · exact .refl _
  · exact State.takeDeadlines_action _ _ _

/-- An answer after an action of the block that decides a request. -/
theorem State.Action.answer {s t : State} (h : s.Action t) (spare : s.ReplySpare) {k : Byte} {st : Status}
    {data : List Byte} : s.KeepsLaws (t.answer k st data) :=
  h.keeps.trans (State.answer_keeps (h.replySpare spare))

theorem State.clockSetRequest_keeps (s : State) (body : List Byte) (spare : s.ReplySpare) :
    s.KeepsLaws (s.clockSetRequest body) := by
  have taken {v : Nat} (req : numberReq 4 body = some v) :
      s.KeepsLaws ((s.setCourt v).answer 0x45#8 .ok (beBytes 4 v)) :=
    (State.writeCourt_keeps (numberReq_le req)).trans
      ((s.setCourt_action v).answer (s.writeCourt_spare v spare))
  unfold State.clockSetRequest
  split
  · exact State.answer_keeps spare
  · next req =>
    split
    · exact taken req
    · split
      · exact State.answer_keeps spare
      · exact taken req

theorem State.courtAdvance_keeps (s : State) : s.KeepsLaws s.courtAdvance := by
  unfold State.courtAdvance
  split
  · exact .refl s
  · next t isSet =>
    refine (s.reach_keeps s.courtNext).trans (State.clock_keeps rfl (fun l => ⟨.refl _, .refl _, rfl, id⟩)
      (fun c => ⟨rfl, rfl, id⟩) ?_ ?_)
    · rintro ⟨led, starts, mark⟩
      refine ⟨led, starts, ?_⟩
      simpa [State.reach, isSet] using mark
    · rintro _ ⟨⟩
      exact Nat.min_le_left _ _

end Sys2Proof.Machine
end

section
/-! The laws kept by the requests: reservations, lockers, heat, the Column Supervisor and the Management
Interpreter. -/

-- The declarations are elaborated one after another, which bounds the memory that their checks take at one time.
set_option Elab.async false

namespace Sys2Proof.Machine

open Config

/-! ## Reservation requests (01 R17 to R25) -/

theorem State.lookup_none {s : State} {p : Reservation → Bool} (h : s.lookup p = none) {i : Slot} {r : Reservation}
    (hr : s.entry i = some r) : p r = false := by
  have := Bank.find_none.mp h i
  rw [← State.entry, hr] at this
  exact this

theorem State.find_isNone {s : State} {i : Slot} (h : s.entries.find (fun e => e.isNone) = some i) :
    s.entry i = none := by
  simpa [State.entry] using Bank.find_test h

/-- The new entry of a RES-PUT that passes its tests. -/
theorem State.putEntry_action {s : State} {i : Slot} {q : Reservation} (free : s.entry i = none)
    (stage : q.stage.locker = none) (tag : s.findTag q.tag = none) (code : s.findCode q.code = none)
    (range : s.RangeLaw → q.inRange) : s.Action (s.setEntry i (some q)) := by
  refine State.KeepsLaws.action (State.setEntry_unbound_keeps (fun r hr => ?_) ?_ (fun _ => ?_) fun h => ?_)
  · rw [free] at hr
    cases hr
  · rintro _ ⟨⟩
    exact stage
  · rintro _ ⟨⟩ j r _ hr
    exact ⟨by simpa using State.lookup_none tag hr, by simpa using State.lookup_none code hr⟩
  · rintro _ ⟨⟩
    exact range h

theorem optional_some {n v : Nat} (h : optional n = some v) : v = n ∧ v ≠ 0 := by
  unfold optional at h
  split at h
  · cases h
  · next nonzero =>
    cases h
    exact ⟨rfl, nonzero⟩

theorem resPutReq_bounds {body : List Byte} {q : ResPutReq} (h : resPutReq body = some q) :
    q.tag ≤ maxCourt ∧ (∀ n, q.code = some n → n ≤ 999999) ∧ q.opens ≤ maxCourt ∧ q.closes ≤ maxCourt
      ∧ ∀ n, q.train = some n → 1 ≤ n ∧ n ≤ 65535 := by
  unfold resPutReq at h
  split at h
  · cases h
    refine ⟨natAt_four_le _ _, fun n => codeOf_le, natAt_four_le _ _, natAt_four_le _ _, fun n hn => ?_⟩
    obtain ⟨rfl, pos⟩ := optional_some hn
    exact ⟨Nat.pos_of_ne_zero pos, natAt_two_le _ _⟩
  · cases h

/-- The hold override of a RES-PUT without a bad field lies within its class. -/
theorem State.resPutBad_override {s : State} (range : s.RangeLaw) {q : ResPutReq} {t h : Nat} {cls : ClassId}
    (good : s.resPutBad q t = false) (hcls : classNumber q.cls = some cls) (hh : q.holdOverride = some h) :
    600 ≤ h ∧ h ≤ 14400 := by
  obtain ⟨_, _, _, classes, _⟩ := range
  simp only [State.resPutBad, hcls, hh, Bool.or_eq_false_iff] at good
  obtain ⟨⟨⟨_, classBad⟩, _⟩, _⟩ := good
  cases hk : s.classes.get cls with
  | none => simp [hk] at classBad
  | some k =>
    have inRange := classes cls k hk
    simp only [hk, decide_eq_false_iff_not] at classBad
    simp only [FoodClass.inRange, decide_eq_true_eq] at inRange
    omega

/-- A RES-PUT without a bad field writes an entry in range. -/
theorem State.putReservation_inRange {s : State} (range : s.RangeLaw) {body : List Byte} {q : ResPutReq}
    (req : resPutReq body = some q) {t code : Nat} {cls : ClassId} (good : s.resPutBad q t = false)
    (hcode : q.code = some code) (hcls : classNumber q.cls = some cls) :
    (⟨q.tag, code, cls, q.opens, q.closes, q.train, q.holdOverride, .booked⟩ : Reservation).inRange := by
  obtain ⟨tagHigh, codeHigh, opens, closes, train⟩ := resPutReq_bounds req
  have nonzero : q.tag ≠ 0 ∧ code ≠ 0 := by
    simp only [State.resPutBad, hcode, Bool.or_eq_false_iff, beq_eq_false_iff_ne] at good
    obtain ⟨⟨⟨⟨⟨tag, _⟩, zero⟩, _⟩, _⟩, _⟩ := good
    exact ⟨tag, fun h => zero (congrArg some h)⟩
  exact ⟨nonzero.1, tagHigh, nonzero.2, codeHigh code hcode, opens, closes, train,
    fun _ => State.resPutBad_override range good hcls, by simp [Stage.pending]⟩

theorem State.resPut_keeps (s : State) (body : List Byte) (spare : s.ReplySpare) : s.KeepsLaws (s.resPut body) := by
  have refused (st : Status) : s.KeepsLaws (s.answer 0x40#8 st []) := State.answer_keeps spare
  unfold State.resPut
  split
  · exact refused _
  · next q req =>
    split
    · exact refused _
    · exact refused _
    · next t _ _ =>
      split
      · exact refused _
      · next good =>
        split
        · next code cls hcode hcls =>
          split
          · exact refused _
          · next fresh =>
            simp only [Bool.or_eq_true, Option.isSome_iff_ne_none, not_or, ne_eq, not_not] at fresh
            split
            · exact refused _
            · next i free =>
              refine State.Action.answer (State.putEntry_action (State.find_isNone free) rfl fresh.1 fresh.2
                fun range => ?_) spare
              exact State.putReservation_inRange range req (Bool.eq_false_iff.mpr good) hcode hcls
        · exact refused _

theorem State.resDrop_keeps (s : State) (body : List Byte) (spare : s.ReplySpare) : s.KeepsLaws (s.resDrop body) := by
  have answered (st : Status) : s.KeepsLaws (s.answer 0x41#8 st []) := State.answer_keeps spare
  unfold State.resDrop
  split
  · exact answered _
  · split
    · exact answered _
    · split
      · exact answered _
      · split
        · exact answered _
        · next r hr =>
          split
          · next booked => exact (State.setEntry_none_action hr (by rw [booked]; rfl)).answer spare
          · next l t ready =>
            have locker : r.stage.locker = some l := by rw [ready]; rfl
            exact State.Action.answer (State.KeepsLaws.action
              (State.unbind_keeps (fun binding => binding.footprint hr locker) rfl rfl)) spare
          all_goals exact answered _

theorem State.limitClose_le (s : State) (l : LockerId) (close : Nat) : s.limitClose l close ≤ close := by
  unfold State.limitClose
  split
  · exact Nat.min_le_left _ _
  · exact le_rfl

theorem State.closeFor_le (s : State) (r : Reservation) (close : Nat) : s.closeFor r close ≤ close := by
  unfold State.closeFor
  split
  · exact s.limitClose_le _ _
  all_goals exact le_rfl

/-- The window of an entry moves, its close limited where its meal is held. -/
theorem State.moveWindow_action {s : State} {i : Slot} {r : Reservation} {opens close : Nat} (hr : s.entry i = some r)
    (away : r.stage.atDoor = false) (hopens : s.RangeLaw → opens ≤ maxCourt) (hclose : close ≤ maxCourt) :
    s.Action (s.setEntry i (some { r with opens := opens, closes := s.closeFor r close })) := by
  refine State.KeepsLaws.action (State.setEntry_keeps hr rfl rfl rfl (fun _ _ => id) (fun l m hl hm fits _ => ?_)
    fun range => ?_)
  · simp only [State.closeFor]
    cases stage : r.stage with
    | booked => simp [stage, Stage.locker] at hl
    | loading k =>
      rw [stage] at fits
      cases state : (s.locker l).state <;> simp_all [LockerState.fits, LockerState.meal]
    | ready k t =>
      obtain rfl : k = l := by simpa [stage, Stage.locker] using hl
      simp only [State.limitClose, hm]
      exact Nat.min_le_right _ _
    | releasing k t p => simp [stage, Stage.atDoor] at away
    | opened k t p => simp [stage, Stage.atDoor] at away
  · obtain ⟨tag, tagHigh, code, codeHigh, _, _, rest⟩ := range.entry hr
    exact ⟨tag, tagHigh, code, codeHigh, hopens range, (s.closeFor_le r close).trans hclose, rest⟩

theorem resShiftReq_bounds {body : List Byte} {q : ResShiftReq} (h : resShiftReq body = some q) :
    q.closes ≤ maxCourt ∧ ∀ n, q.opens = some n → n ≤ maxCourt := by
  unfold resShiftReq at h
  split at h
  · cases h
    refine ⟨natAt_four_le _ _, fun n hn => ?_⟩
    rw [(optional_some hn).1]
    exact natAt_four_le _ _
  · cases h

theorem State.resShift_keeps (s : State) (body : List Byte) (spare : s.ReplySpare) : s.KeepsLaws (s.resShift body) := by
  have refused (st : Status) : s.KeepsLaws (s.answer 0x42#8 st []) := State.answer_keeps spare
  unfold State.resShift
  split
  · exact refused _
  · next q req =>
    obtain ⟨high, openHigh⟩ := resShiftReq_bounds req
    split
    · exact refused _
    · split
      · exact refused _
      · next i _ =>
        split
        · exact refused _
        · next r hr =>
          simp only
          split
          · exact refused _
          · next away =>
            split
            · exact refused _
            · have opens (range : s.RangeLaw) : q.opens.getD r.opens ≤ maxCourt := by
                cases given : q.opens with
                | none => exact (range.entry hr).2.2.2.2.1
                | some n => exact openHigh n given
              exact ((State.moveWindow_action hr (Bool.eq_false_iff.mpr away) opens high).trans
                (State.windowDue_action _ i)).answer spare

theorem State.trainShift_keeps (s : State) (body : List Byte) (spare : s.ReplySpare) :
    s.KeepsLaws (s.trainShift body) := by
  unfold State.trainShift
  split
  · exact State.answer_keeps spare
  · split
    · exact State.answer_keeps spare
    · split
      · exact State.answer_keeps spare
      · exact (State.free_keeps rfl).trans (State.answer_keeps spare)

theorem shiftTime_le (t : Nat) (delta : Int) : shiftTime t delta ≤ maxCourt := Nat.min_le_left _ _

theorem State.visitSlot_action (s : State) (w : ShiftWalk) : s.Action (s.visitSlot w).1 := by
  unfold State.visitSlot
  split
  · exact .refl s
  · next r hr =>
    split
    · split
      · exact .refl s
      · next away =>
        exact (State.moveWindow_action hr (Bool.eq_false_iff.mpr away) (fun _ => shiftTime_le _ _)
          (shiftTime_le _ _)).trans (State.windowDue_action _ _)
    · exact .refl s

theorem State.shiftVisit_keeps (s : State) : s.KeepsLaws s.shiftVisit := by
  unfold State.shiftVisit
  split
  · exact .refl s
  · next w _ =>
    have visited := (s.reach_keeps w.next).trans ((s.reach w.next).visitSlot_action w).keeps
    simp only
    split
    · exact visited.trans (State.free_keeps rfl)
    · exact (visited.trans (State.free_keeps rfl)).trans (State.queueNotice_keeps _ _)

theorem State.resRead_keeps (s : State) (body : List Byte) (spare : s.ReplySpare) : s.KeepsLaws (s.resRead body) := by
  unfold State.resRead
  split
  · exact State.answer_keeps spare
  · exact State.answer_keeps spare
  · split
    · exact State.answer_keeps spare
    · split
      · exact State.answer_keeps spare
      · exact State.answer_keeps spare

/-! ## Requests about lockers (02 R50, R51; 06 R124) -/

theorem State.lockerRead_keeps (s : State) (body : List Byte) (spare : s.ReplySpare) :
    s.KeepsLaws (s.lockerRead body) := by
  unfold State.lockerRead
  split
  · exact State.answer_keeps spare
  · exact State.answer_keeps spare

theorem State.clearFault_action {s : State} {l : LockerId} {f : LockerFault} {stored : Option Stored}
    (blocked : (s.locker l).state = .blocked f stored) (left : Option Stored) (empty : Bool) :
    s.Action (s.enterLocker l (if empty then .purgeWait else .spoiled left)) := by
  have unbound : (s.locker l).state.slot = none := by rw [blocked]; rfl
  cases empty with
  | true => exact State.KeepsLaws.action (State.enterLocker_unbound_keeps unbound rfl rfl)
  | false => exact State.KeepsLaws.action (State.enterLocker_unbound_keeps unbound rfl rfl)

theorem State.faultClear_keeps (s : State) (body : List Byte) (spare : s.ReplySpare) :
    s.KeepsLaws (s.faultClear body) := by
  unfold State.faultClear
  split
  · exact State.answer_keeps spare
  · next l _ =>
    split
    · next stored blocked =>
      have cleared := State.clearFault_action blocked stored (decide ((s.locker l).occupied = .no))
      simp only [decide_eq_true_eq] at cleared
      exact cleared.answer spare
    · exact State.answer_keeps spare

theorem State.purgeAbort_keeps (s : State) (body : List Byte) (spare : s.ReplySpare) :
    s.KeepsLaws (s.purgeAbort body) := by
  have answered (st : Status) : s.KeepsLaws (s.answer 0x4A#8 st []) := State.answer_keeps spare
  unfold State.purgeAbort
  split
  · exact answered _
  · split
    · split
      · split
        · exact answered _
        · split
          · exact (s.queueAbort_action _ false).answer spare
          · exact answered _
      · exact answered _
    · exact answered _

/-! ## Requests about heat (05 R98, R100) -/

theorem State.setClass_keeps {s : State} {k : ClassId} {rec : Option FoodClass}
    (range : ∀ c, rec = some c → c.inRange = true) : s.KeepsLaws { s with classes := s.classes.set k rec } where
  keys := id
  binding := id
  close _ := id
  queue := id
  door _ := id
  port _ := id
  mode := id
  pass := id
  range := by
    rintro ⟨columns, lockers, entries, classes, rest⟩
    refine ⟨columns, lockers, entries, fun j c hc => ?_, rest⟩
    rw [Bank.get_set] at hc
    split at hc
    · exact range c hc
    · exact classes j c hc
  budget := id

theorem State.classSet_keeps (s : State) (body : List Byte) (spare : s.ReplySpare) :
    s.KeepsLaws (s.classSet body) := by
  unfold State.classSet
  split
  · exact State.answer_keeps spare
  · next q _ =>
    split
    · next k enabled _ _ =>
      split
      · exact State.answer_keeps spare
      · next good =>
        split
        · exact State.answer_keeps spare
        · refine (State.setClass_keeps (k := k) (rec := if enabled then some q.values else none) ?_).trans
            (State.answer_keeps spare)
          intro c hc
          cases enabled with
          | false => cases hc
          | true =>
            cases hc
            simpa using good
    · exact State.answer_keeps spare

theorem State.columnSet_keeps (s : State) (body : List Byte) (spare : s.ReplySpare) :
    s.KeepsLaws (s.columnSet body) := by
  unfold State.columnSet
  split
  · exact State.answer_keeps spare
  · split
    · exact State.answer_keeps spare
    · next budget _ _ c _ =>
      split
      · exact State.answer_keeps spare
      · next fits =>
        refine .trans (t := s.setColumn c { s.column c with pendingBudget := some budget })
          (State.setColumn_keeps (fun h => h c) fun h => ?_) (State.answer_keeps (s := s.setColumn c _) spare)
        obtain ⟨silence, wrong, lockout, low, high, _, granted⟩ := h.column c
        refine ⟨silence, wrong, lockout, low, high, ?_, granted⟩
        rintro _ ⟨⟩
        omega

/-! ## Requests to the Column Supervisor (10 R191, R194) -/

theorem State.markWalks_action (s : State) (cs : List Col) : s.Action (s.markWalks cs) :=
  State.foldl_action (fun s c => State.KeepsLaws.action
    (State.setColumn_free_keeps (c := c) (v := { s.column c with walkPending := true }) rfl rfl rfl (.inl rfl) rfl
      rfl)) s cs

theorem State.rollCall_keeps (s : State) (body : List Byte) (spare : s.ReplySpare) :
    s.KeepsLaws (s.rollCall body) := by
  unfold State.rollCall
  split
  · exact State.answer_keeps spare
  · split
    · exact State.answer_keeps spare
    · split
      · exact State.answer_keeps spare
      · exact ((s.walkOp_action _ _ _).trans (State.markWalks_action _ _)).answer spare

theorem State.columnRead_keeps (s : State) (body : List Byte) (spare : s.ReplySpare) :
    s.KeepsLaws (s.columnRead body) := by
  unfold State.columnRead
  split
  · exact State.answer_keeps spare
  · exact State.answer_keeps spare

/-! ## Requests to the Management Interpreter (11 R200 to R207) -/

theorem State.filterSet_keeps (s : State) (body : List Byte) (spare : s.ReplySpare) :
    s.KeepsLaws (s.filterSet body) := by
  unfold State.filterSet
  split
  · exact State.answer_keeps spare
  · split
    · split
      · exact State.answer_keeps spare
      · exact (State.free_keeps rfl).trans (State.answer_keeps spare)
    · exact State.answer_keeps spare

theorem State.changeMode_spare (s : State) (m : OpMode) : s.KeepsSpare (s.changeMode m) := fun spare =>
  State.queueNotice_spare _ _ spare

theorem State.modeSet_keeps (s : State) (body : List Byte) (spare : s.ReplySpare) :
    s.KeepsLaws (s.modeSet body) := by
  unfold State.modeSet
  split
  · exact State.answer_keeps spare
  · exact State.answer_keeps spare
  · next m other _ =>
    split
    · exact State.answer_keeps spare
    · split
      · exact State.answer_keeps spare
      · exact (State.changeMode_keeps other).trans (State.answer_keeps (s.changeMode_spare m spare))

theorem State.statsRead_keeps (s : State) (body : List Byte) (spare : s.ReplySpare) :
    s.KeepsLaws (s.statsRead body) := by
  unfold State.statsRead
  split
  · exact State.answer_keeps spare
  · exact (s.counters_keeps _).trans (State.answer_keeps spare)

theorem State.restartRequest_keeps (s : State) (body : List Byte) (spare : s.ReplySpare) :
    s.KeepsLaws (s.restartRequest body) := by
  unfold State.restartRequest
  split
  · exact (State.free_keeps rfl).trans (State.placeReply_keeps spare)
  · exact State.answer_keeps spare

theorem State.takeHead_keeps {s : State} {f : InboxFrame} {rest : List InboxFrame} (h : s.inbox = f :: rest) :
    s.KeepsLaws { s with inbox := rest } :=
  State.port_keeps rfl (by rw [h, List.length_cons]; exact fun full => by simp only; omega) id le_rfl id

theorem State.takeUnknown_keeps (s : State) : s.KeepsLaws s.takeUnknown := by
  unfold State.takeUnknown
  split
  · exact .refl s
  · next head =>
    split
    · next takes => exact (State.takeHead_keeps head).trans (State.answer_keeps (State.replySpare_of_canTake takes.2.2))
    · exact .refl s

/-! ## Pass-through (11 R201, R202) -/

/-- A kind that the Filter Table does not refuse has an entry there. -/
theorem State.filterOf_kind {s : State} {kind : Byte} (h : (s.filterOf kind).action ≠ .refuse) :
    kind = 0x09#8 ∨ 0x10 ≤ kind.toNat ∧ kind.toNat ≤ 0x3F := by
  unfold State.filterOf filterIndex at h
  split at h
  · exact absurd rfl h
  · next found =>
    split at found
    · next nine => exact .inl nine
    · split at found
      · next inside => exact .inr inside
      · cases found

theorem State.passOp_keeps {s : State} {dest : Dest} {kind : Byte} {m : Mode} {body : List Byte}
    (walk : m.isWalk = false) (filtered : kind = 0x09#8 ∨ 0x10 ≤ kind.toNat ∧ kind.toNat ≤ 0x3F)
    (few : s.passOutstanding < 2) (spare : s.ReplySpare) : s.KeepsLaws (s.enqueue (passOp dest kind m body)) := by
  refine State.enqueue_keeps ⟨nofun, fun h => ?_, fun l h => ?_, fun _ => ⟨filtered, few, spare⟩⟩
  · simp [passOp, Op.blank, walk] at h
  · have unlatch : kind = 0x04#8 := by
      simp only [passOp, Op.blank, Op.isUnlatch, Bool.and_eq_true, beq_iff_eq] at h
      obtain ⟨⟨⟨kind, _⟩, _⟩, _⟩ := h
      exact kind
    subst unlatch
    exact absurd filtered (by decide)

theorem State.passJudge_keeps {s : State} (dest : Dest) (kind : Byte) (body : List Byte) (spare : s.ReplySpare) :
    s.KeepsLaws (s.passJudge dest kind body) := by
  have answered (st : Status) : s.KeepsLaws (s.passAnswer ⟨kind, dest.station⟩ st []) := State.placeReply_keeps spare
  unfold State.passJudge
  simp only
  split
  · exact answered _
  · next admitted =>
    split
    · exact answered _
    · split
      · exact answered _
      · next few =>
        split
        · exact answered _
        · split
          · exact answered _
          · have filtered := State.filterOf_kind admitted
            split
            · exact State.passOp_keeps rfl filtered (by omega) spare
            · exact State.passOp_keeps (by split <;> rfl) filtered (by omega) spare

theorem State.takePass_keeps (s : State) : s.KeepsLaws s.takePass := by
  unfold State.takePass
  split
  · exact .refl s
  · next head =>
    split
    · exact .refl s
    · split
      · next takes =>
        exact (State.takeHead_keeps head).trans (State.passJudge_keeps _ _ _ (State.replySpare_of_canTake takes))
      · exact .refl s

end Sys2Proof.Machine
end

section
/-! The laws kept by the Server Port, RESTART and reset, and by every step. -/

-- The declarations are elaborated one after another, which bounds the memory that their checks take at one time.
set_option Elab.async false

namespace Sys2Proof.Machine

open Config

/-! ## Door-held timing (02 R49) -/

theorem State.doorHeldDue_keeps (s : State) (l : LockerId) : s.KeepsLaws (s.doorHeldDue l) := by
  unfold State.doorHeldDue
  simp only
  split
  · next d side _ _ =>
    split
    · exact .refl s
    · next t _ =>
      split
      · exact .refl s
      · have reported := State.withDoor_keeps (s.reach (t + (s.locker l).state.heldLimit)) l { d with reported := true }
        exact ((s.reach_keeps _).trans reported).trans (State.queueNotice_keeps _ _)
  · exact .refl s

/-! ## The Server Port (07 R132 to R134, 11 R196, R198) -/

theorem State.countServerDiscard_keeps (s : State) : s.KeepsLaws s.countServerDiscard := s.counters_keeps _

theorem State.offerInbox_keeps (s : State) (f : Frame) : s.KeepsLaws (s.offerInbox f) := by
  unfold State.offerInbox
  split
  · next room => exact State.port_keeps rfl (by simpa [inboxSize] using fun _ => room) id le_rfl id
  · split
    · next room => exact State.placeReply_keeps (State.replySpare_of_room room)
    · exact s.countServerDiscard_keeps

theorem State.serverFound_keeps (s : State) (e : RxEvent) : s.KeepsLaws (s.serverFound e) := by
  unfold State.serverFound State.judgeServerFrame
  split
  · exact s.countServerDiscard_keeps
  · simp only
    split
    · exact s.offerInbox_keeps _
    · exact s.countServerDiscard_keeps

theorem State.serverGap_keeps (s : State) : s.KeepsLaws s.serverGap := by
  unfold State.serverGap
  split
  · exact .refl s
  · exact (State.free_keeps rfl).trans (State.serverFound_keeps _ _)

theorem State.serverChar_keeps (s : State) (ch : LineChar) : s.KeepsLaws (s.serverChar ch) := by
  have lapsed : s.KeepsLaws (if s.serverRx.lapsed .server ch.start then s.serverGap else s) := by
    split
    · exact s.serverGap_keeps
    · exact .refl s
  unfold State.serverChar
  generalize (if s.serverRx.lapsed .server ch.start then s.serverGap else s) = s1 at lapsed ⊢
  refine (lapsed.trans (s1.reach_keeps (stopBit .server ch))).trans ?_
  simp only
  split
  · exact State.free_keeps rfl
  · exact (State.free_keeps rfl).trans (State.serverFound_keeps _ _)

theorem State.serverChars_keeps (s : State) (chars : List LineChar) : s.KeepsLaws (s.serverChars chars) :=
  State.foldl_keeps State.serverChar_keeps s chars

theorem State.portChars_keeps (s : State) (port : Port) (chars : List LineChar) :
    s.KeepsLaws (s.portChars port chars) := by
  cases port with
  | server => exact s.serverChars_keeps chars
  | column => exact s.columnChars_keeps chars

theorem State.portGap_keeps (s : State) (port : Port) : s.KeepsLaws (s.portGap port) := by
  cases port with
  | server => exact s.serverGap_keeps
  | column => exact s.columnGap_keeps

/-! ## RESTART (11 R208) -/

theorem State.abandon_keeps (s : State) : s.KeepsLaws s.abandon := by
  unfold State.abandon
  split
  · exact .refl s
  · split
    · exact s.clearLine_keeps.trans (State.setColumn_free_keeps rfl rfl rfl (.inl rfl) rfl rfl)
    · exact State.free_keeps rfl

theorem initialWalk_fields (now : Time) : (initialWalk now).tag = 1 ∧ (initialWalk now).origin = .roll
    ∧ (initialWalk now).kind = 0x03#8 ∧ ∀ l, (initialWalk now).isUnlatch l = false :=
  ⟨rfl, rfl, rfl, fun _ => rfl⟩

/-- A queue that holds the initial walk alone. -/
theorem State.queueLaw_of_initialWalk {s : State} {now : Time} (h : s.ops = [initialWalk now]) : s.QueueLaw := by
  rw [State.queueLaw_iff, h]
  simp [initialWalk]

theorem State.doorLaw_of_initialWalk {s : State} {now : Time} (h : s.ops = [initialWalk now]) : s.DoorLaw := by
  intro l
  obtain ⟨_, _, _, unlatch⟩ := initialWalk_fields now
  simp [h, unlatch]

theorem State.passLaw_of_initialWalk {s : State} {now : Time} (h : s.ops = [initialWalk now]) : s.PassLaw := by
  intro op hop pass
  rw [h, List.mem_singleton] at hop
  subst hop
  cases pass

theorem State.portLaw_of_empty {s : State} {now : Time} (ops : s.ops = [initialWalk now]) (inbox : s.inbox = [])
    (replies : s.replies = []) (notices : s.notices = []) : s.PortLaw := by
  simp [State.PortLaw, State.passOutstanding, ops, inbox, replies, notices, initialWalk]

theorem Column.restarted_inRange {col : Column} (h : col.inRange) (now : Time) : (col.restarted now).inRange := by
  obtain ⟨_, _, _, low, high, pending, granted⟩ := h
  exact ⟨by simp [Column.restarted], by simp [Column.restarted], by simp [Column.restarted], low, high, pending, granted⟩

theorem State.restartEffect_keeps (s : State) : s.KeepsLaws s.restartEffect := by
  refine s.abandon_keeps.trans ?_
  unfold State.restartEffect
  generalize s.abandon = u
  exact {
    keys := id, binding := id, close := fun _ => id
    queue := fun _ => State.queueLaw_of_initialWalk rfl
    door := fun _ _ => State.doorLaw_of_initialWalk rfl
    port := fun _ _ => State.portLaw_of_empty rfl rfl rfl rfl
    mode := fun _ => ⟨by simp, by simp, rfl⟩
    pass := fun _ => State.passLaw_of_initialWalk rfl
    range := by
      rintro ⟨columns, lockers, entries, classes, court, _, _⟩
      refine ⟨fun c => ?_, lockers, entries, classes, court, Nat.zero_le _, Nat.zero_le _⟩
      simp only [State.column, Bank.get_map]
      exact Column.restarted_inRange (columns c) _
    budget := by
      intro budget c
      simp only [State.column, Bank.get_map]
      exact budget c }

theorem State.restartTakesEffect_keeps (s : State) : s.KeepsLaws s.restartTakesEffect := by
  unfold State.restartTakesEffect
  split
  · exact .refl s
  · split
    · exact s.restartEffect_keeps
    · exact .refl s

theorem State.transmitEnd_keeps (s : State) : s.KeepsLaws s.transmitEnd := by
  unfold State.transmitEnd
  split
  · exact .refl s
  · split
    · exact s.restartEffect_keeps
    · exact State.free_keeps rfl

/-! ## Power and RESET_N (01 R26) -/

@[simp] theorem State.reset_entry (i : Slot) : State.reset.entry i = none := Bank.get_fill _ _

@[simp] theorem State.reset_locker (l : LockerId) : State.reset.locker l = .reset := Bank.get_fill _ _

@[simp] theorem State.reset_column (c : Col) : State.reset.column c = .reset := Bank.get_fill _ _

/-- Every law at once. -/
structure State.Lawful (s : State) : Prop where
  keys : s.UniqueKeys
  binding : s.BindingLaw
  close : s.CloseLimited
  door : s.DoorLaw
  queue : s.QueueLaw
  port : s.PortLaw
  budget : s.BudgetLaw
  mode : s.ModeLaw
  pass : s.PassLaw
  range : s.RangeLaw

theorem State.Lawful.keeps {t : State} (h : t.Lawful) (s : State) : s.KeepsLaws t where
  keys _ := h.keys
  binding _ := h.binding
  close _ _ := h.close
  queue _ := h.queue
  door _ _ := h.door
  port _ _ := h.port
  mode _ := h.mode
  pass _ := h.pass
  range _ := h.range
  budget _ := h.budget

theorem Column.reset_inRange : Column.reset.inRange := by
  simp [Column.inRange, Column.reset]

theorem Locker.reset_inRange : Locker.reset.inRange := by
  simp [Locker.inRange, Locker.reset]

theorem classTable_inRange : ∀ (k : ClassId) (c : FoodClass), classTable.get k = some c → c.inRange = true := by
  decide

theorem State.reset_lawful : State.reset.Lawful where
  keys i j r q hr := by simp at hr
  binding := ⟨fun l i hi => by simp [Locker.reset, LockerState.slot] at hi, fun i r l hr => by simp at hr⟩
  close l i m r _ hr := by simp at hr
  door := State.doorLaw_of_initialWalk rfl
  queue := State.queueLaw_of_initialWalk rfl
  port := State.portLaw_of_empty rfl rfl rfl rfl
  budget c := by simp [Column.reset, fill_zero_sum]
  mode := by simp [State.ModeLaw, State.reset]
  pass := State.passLaw_of_initialWalk rfl
  range := by
    refine ⟨fun c => ?_, fun l => ?_, fun i r hr => by simp at hr, classTable_inRange, ?_⟩
    · rw [State.reset_column]
      exact Column.reset_inRange
    · rw [State.reset_locker]
      exact Locker.reset_inRange
    · simp [State.reset]

/-- The power-on state, the commands that wait and the free values kept. -/
theorem State.powerOn_keeps (s : State) : s.KeepsLaws { State.reset with pending := s.pending, choices := s.choices } :=
  (State.reset_lawful.keeps s).trans (State.free_keeps rfl)

theorem State.heldReset_keeps (s : State) :
    s.KeepsLaws { State.reset with pending := s.pending, choices := s.choices, held := true, ops := [] } :=
  (s.powerOn_keeps.trans (State.drop_keeps (List.nil_sublist _))).trans (State.free_keeps rfl)

/-! ## Every step -/

/-- Every command keeps the laws. -/
theorem exec_keeps {c : Instr} {s t : State} (h : exec c s = .next t) : s.KeepsLaws t := by
  cases c with
  | powerOnReset => cases h; exact s.powerOn_keeps
  | resetAsserted => cases h; exact s.heldReset_keeps
  | characterError port chars => exact event_keeps (fun s => s.portChars_keeps port chars) h
  | characterGapTimeout port chars =>
    exact event_keeps (fun s => (s.portChars_keeps port chars).trans (State.portGap_keeps _ port)) h
  | serverFrameReceived chars => exact event_keeps (fun s => s.serverChars_keeps chars) h
  | resPut => exact event_keeps (State.takeRequest_keeps State.resPut_keeps) h
  | resDrop => exact event_keeps (State.takeRequest_keeps State.resDrop_keeps) h
  | resShift => exact event_keeps (State.takeRequest_keeps State.resShift_keeps) h
  | trainShift => exact event_keeps (State.takeRequest_keeps State.trainShift_keeps) h
  | resRead => exact event_keeps (State.takeRequest_keeps State.resRead_keeps) h
  | clockSet => exact event_keeps (State.takeRequest_keeps State.clockSetRequest_keeps) h
  | lockerRead => exact event_keeps (State.takeRequest_keeps State.lockerRead_keeps) h
  | faultClear => exact event_keeps (State.takeRequest_keeps State.faultClear_keeps) h
  | classSet => exact event_keeps (State.takeRequest_keeps State.classSet_keeps) h
  | columnSet => exact event_keeps (State.takeRequest_keeps State.columnSet_keeps) h
  | purgeAbort => exact event_keeps (State.takeRequest_keeps State.purgeAbort_keeps) h
  | rollCall => exact event_keeps (State.takeRequest_keeps State.rollCall_keeps) h
  | columnRead => exact event_keeps (State.takeRequest_keeps State.columnRead_keeps) h
  | filterSet => exact event_keeps (State.takeRequest_keeps State.filterSet_keeps) h
  | modeSet => exact event_keeps (State.takeRequest_keeps State.modeSet_keeps) h
  | statsRead => exact event_keeps (State.takeRequest_keeps State.statsRead_keeps) h
  | restart => exact event_keeps (State.takeRequest_keeps State.restartRequest_keeps) h
  | unknownKind => exact event_keeps State.takeUnknown_keeps h
  | passThrough => exact event_keeps State.takePass_keeps h
  | restartTakesEffect => exact event_keeps State.restartTakesEffect_keeps h
  | transmitEnd => exact event_keeps State.transmitEnd_keeps h
  | courtTimeAdvance => exact event_keeps State.courtAdvance_keeps h
  | windowClose slot => exact event_keeps (fun s => (s.windowDue_action slot).keeps) h
  | holdDeadline locker => exact event_keeps (fun s => (s.holdDue_action locker).keeps) h
  | lockoutEnd column => exact event_keeps (fun s => (s.lockoutDue_action column).keeps) h
  | settleEnd column => exact event_keeps (fun s => (s.settleDue_action column).keeps) h
  | purgeStall locker => exact event_keeps (fun s => (s.stallDue_action locker).keeps) h
  | restEnd locker => exact event_keeps (fun s => (s.restDue_action locker).keeps) h
  | trainShiftVisit => exact event_keeps State.shiftVisit_keeps h
  | heatPeriodExpiry column => exact event_keeps (fun s => s.heatExpiry_keeps column) h
  | doorHeld locker => exact event_keeps (fun s => s.doorHeldDue_keeps locker) h
  | pollTimerExpiry => exact event_keeps State.pollExpiry_keeps h
  | portGrant => exact event_keeps State.portGrant_keeps h
  | retry => exact event_keeps State.retryNow_keeps h
  | tryTimeout => exact event_keeps State.tryTimeout_keeps h
  | columnReply chars => exact event_keeps (fun s => s.columnChars_keeps chars) h
  | columnFrameCorrupt chars => exact event_keeps (fun s => s.columnChars_keeps chars) h
  | broadcastSent => exact event_keeps State.broadcastSent_keeps h
  | pollEnd chars => exact event_keeps (fun s => s.pollEnded_keeps chars) h
  | badLength port chars => exact event_keeps (fun s => s.portChars_keeps port chars) h

/-- Every step keeps the laws. -/
theorem step_keeps {s t : State} (h : step s = .next t) : s.KeepsLaws t := by
  unfold step at h
  split at h
  · next c rest _ => exact .trans (t := { s with pending := rest }) (State.free_keeps rfl) (exec_keeps h)
  · cases h
    split
    · exact .refl s
    · exact State.free_keeps rfl

/-! ## The laws every step keeps -/

/-- Settles O5. -/
theorem stepKeepsTagsAndCodesDistinct : Obligations.StepKeepsTagsAndCodesDistinct :=
  fun _ _ keys h => (step_keeps h).keys keys

/-- Settles O6. -/
theorem stepKeepsTheBindingLaw : Obligations.StepKeepsTheBindingLaw :=
  fun _ _ binding h => (step_keeps h).binding binding

/-- Settles O7. -/
theorem stepKeepsCloseWithinHoldDeadline : Obligations.StepKeepsCloseWithinHoldDeadline :=
  fun _ _ binding close h => (step_keeps h).close binding close

/-- Settles O8. -/
theorem stepKeepsTheDoorLaw : Obligations.StepKeepsTheDoorLaw :=
  fun _ _ queue door h => (step_keeps h).door queue door

/-- Settles O9. -/
theorem stepKeepsTheQueueLaw : Obligations.StepKeepsTheQueueLaw :=
  fun _ _ queue h => (step_keeps h).queue queue

/-- Settles O10. -/
theorem stepKeepsThePortQueuesInBounds : Obligations.StepKeepsThePortQueuesInBounds :=
  fun _ _ queue port h => (step_keeps h).port queue port

/-- Settles O11. -/
theorem stepKeepsGrantsWithinTheBudget : Obligations.StepKeepsGrantsWithinTheBudget :=
  fun _ _ budget h => (step_keeps h).budget budget

/-- Settles O12. -/
theorem stepKeepsTheModeLaw : Obligations.StepKeepsTheModeLaw :=
  fun _ _ mode h => (step_keeps h).mode mode

/-- Settles O13. -/
theorem stepKeepsGuardedKindsOutOfPassOperations : Obligations.StepKeepsGuardedKindsOutOfPassOperations :=
  fun _ _ pass h => (step_keeps h).pass pass

/-- Settles O14. -/
theorem stepKeepsFieldsInRange : Obligations.StepKeepsFieldsInRange :=
  fun _ _ range h => (step_keeps h).range range

/-! ## The block's interface -/

/-- Settles O1. -/
theorem stepRunsTheFrontCommand : Obligations.StepRunsTheFrontCommand := by
  intro s c rest front
  rw [step, front]

/-- Every command but those of the reset line is an event. -/
theorem exec_eq_event {c : Instr} (power : c ≠ .powerOnReset) (reset : c ≠ .resetAsserted) (s : State) :
    ∃ f, exec c s = event f s := by
  cases c with
  | powerOnReset => exact absurd rfl power
  | resetAsserted => exact absurd rfl reset
  | _ => simp only [exec]; exact ⟨_, rfl⟩

theorem exec_held {c : Instr} {s : State} (held : s.held = true) (power : c ≠ .powerOnReset)
    (reset : c ≠ .resetAsserted) : exec c s = .next s := by
  obtain ⟨f, same⟩ := exec_eq_event power reset s
  rw [same, event_held held]

/-- Settles O2. -/
theorem idleAndHeldStepsDoNothingElse : Obligations.IdleAndHeldStepsDoNothingElse :=
  ⟨fun s idle => ⟨fun running => by simp [step, idle, running], fun held => by simp [step, idle, held]⟩,
    fun _ _ => exec_held⟩

theorem Column.reset_eq : Column.reset =
    { state := .unseen, silence := 0, walkPending := true, attention := false, walkOwed := false
      budget := 8, pendingBudget := none, pointer := 0, granted := .fill 8 0
      heatNext := some 10000000, wrong := 0, lockout := none, quiet := none } := by
  simp [Column.reset, heatPeriod, ms]

theorem filterTable_get (k : Fin 49) : filterTable.get k = if k = 0 then ⟨.passInService, false⟩ else ⟨.refuse, false⟩ := by
  simp [filterTable, Bank.get_set, eq_comm]

theorem State.reset_pollNext : State.reset.pollNext = State.reset.now + 40000 := by
  simp [State.reset, pollPeriod, ms]

/-- Settles O3. -/
theorem resetLeavesThePowerOnState : Obligations.ResetLeavesThePowerOnState := fun _ =>
  ⟨_, _, rfl, rfl, rfl, rfl, rfl, State.reset_entry, rfl, rfl, State.reset_locker,
    fun c => (State.reset_column c).trans Column.reset_eq, rfl, rfl, rfl, rfl, rfl, rfl, rfl, rfl, rfl, rfl,
    State.reset_pollNext, rfl, rfl, rfl, rfl, rfl, rfl, rfl, filterTable_get, rfl, rfl, rfl, rfl, rfl, rfl⟩

/-- Settles O4. -/
theorem resetKeepsEveryLaw : Obligations.ResetKeepsEveryLaw :=
  let h := State.reset_lawful
  ⟨h.keys, h.binding, h.close, h.door, h.queue, h.port, h.budget, h.mode, h.pass, h.range⟩

end Sys2Proof.Machine
end

section
/-! What each command does while the part runs: one equation for each, a request with its frame at the head of the
inbox. -/

-- The declarations are elaborated one after another, which bounds the memory that their checks take at one time.
set_option Elab.async false

namespace Sys2Proof.Machine

open Config

/-! ## Requests (07 R145) -/

section

variable {s : State} {body : List Byte} {rest : List InboxFrame}

theorem exec_resPut (head : s.HeadIs 0x40#8 body rest) :
    exec .resPut s = .next (State.transmit (State.resPut { s with inbox := rest } body)) :=
  event_takeRequest head State.resPut

theorem exec_resDrop (head : s.HeadIs 0x41#8 body rest) :
    exec .resDrop s = .next (State.transmit (State.resDrop { s with inbox := rest } body)) :=
  event_takeRequest head State.resDrop

theorem exec_resShift (head : s.HeadIs 0x42#8 body rest) :
    exec .resShift s = .next (State.transmit (State.resShift { s with inbox := rest } body)) :=
  event_takeRequest head State.resShift

theorem exec_trainShift (head : s.HeadIs 0x43#8 body rest) :
    exec .trainShift s = .next (State.transmit (State.trainShift { s with inbox := rest } body)) :=
  event_takeRequest head State.trainShift

theorem exec_resRead (head : s.HeadIs 0x44#8 body rest) :
    exec .resRead s = .next (State.transmit (State.resRead { s with inbox := rest } body)) :=
  event_takeRequest head State.resRead

theorem exec_clockSet (head : s.HeadIs 0x45#8 body rest) :
    exec .clockSet s = .next (State.transmit (State.clockSetRequest { s with inbox := rest } body)) :=
  event_takeRequest head State.clockSetRequest

theorem exec_lockerRead (head : s.HeadIs 0x46#8 body rest) :
    exec .lockerRead s = .next (State.transmit (State.lockerRead { s with inbox := rest } body)) :=
  event_takeRequest head State.lockerRead

theorem exec_faultClear (head : s.HeadIs 0x47#8 body rest) :
    exec .faultClear s = .next (State.transmit (State.faultClear { s with inbox := rest } body)) :=
  event_takeRequest head State.faultClear

theorem exec_classSet (head : s.HeadIs 0x48#8 body rest) :
    exec .classSet s = .next (State.transmit (State.classSet { s with inbox := rest } body)) :=
  event_takeRequest head State.classSet

theorem exec_columnSet (head : s.HeadIs 0x49#8 body rest) :
    exec .columnSet s = .next (State.transmit (State.columnSet { s with inbox := rest } body)) :=
  event_takeRequest head State.columnSet

theorem exec_purgeAbort (head : s.HeadIs 0x4A#8 body rest) :
    exec .purgeAbort s = .next (State.transmit (State.purgeAbort { s with inbox := rest } body)) :=
  event_takeRequest head State.purgeAbort

theorem exec_rollCall (head : s.HeadIs 0x4B#8 body rest) :
    exec .rollCall s = .next (State.transmit (State.rollCall { s with inbox := rest } body)) :=
  event_takeRequest head State.rollCall

theorem exec_columnRead (head : s.HeadIs 0x4C#8 body rest) :
    exec .columnRead s = .next (State.transmit (State.columnRead { s with inbox := rest } body)) :=
  event_takeRequest head State.columnRead

theorem exec_filterSet (head : s.HeadIs 0x4D#8 body rest) :
    exec .filterSet s = .next (State.transmit (State.filterSet { s with inbox := rest } body)) :=
  event_takeRequest head State.filterSet

theorem exec_modeSet (head : s.HeadIs 0x4E#8 body rest) :
    exec .modeSet s = .next (State.transmit (State.modeSet { s with inbox := rest } body)) :=
  event_takeRequest head State.modeSet

theorem exec_statsRead (head : s.HeadIs 0x4F#8 body rest) :
    exec .statsRead s = .next (State.transmit (State.statsRead { s with inbox := rest } body)) :=
  event_takeRequest head State.statsRead

theorem exec_restart (head : s.HeadIs 0x50#8 body rest) :
    exec .restart s = .next (State.transmit (State.restartRequest { s with inbox := rest } body)) :=
  event_takeRequest head State.restartRequest

end

/-! ## Timers, ports and the other events -/

section

variable {s : State} (running : s.held = false)
include running

theorem exec_unknownKind :
    exec .unknownKind s = .next (State.transmit (s.takeUnknown)) :=
  event_running running fun s => s.takeUnknown

theorem exec_passThrough :
    exec .passThrough s = .next (State.transmit (s.takePass)) :=
  event_running running fun s => s.takePass

theorem exec_transmitEnd :
    exec .transmitEnd s = .next (State.transmit (s.transmitEnd)) :=
  event_running running fun s => s.transmitEnd

theorem exec_courtTimeAdvance :
    exec .courtTimeAdvance s = .next (State.transmit (s.courtAdvance)) :=
  event_running running fun s => s.courtAdvance

theorem exec_windowClose (slot : Slot) :
    exec (.windowClose slot) s = .next (State.transmit (s.windowDue slot)) :=
  event_running running fun s => s.windowDue slot

theorem exec_holdDeadline (locker : LockerId) :
    exec (.holdDeadline locker) s = .next (State.transmit (s.holdDue locker)) :=
  event_running running fun s => s.holdDue locker

theorem exec_lockoutEnd (column : Col) :
    exec (.lockoutEnd column) s = .next (State.transmit (s.lockoutDue column)) :=
  event_running running fun s => s.lockoutDue column

theorem exec_settleEnd (column : Col) :
    exec (.settleEnd column) s = .next (State.transmit (s.settleDue column)) :=
  event_running running fun s => s.settleDue column

theorem exec_purgeStall (locker : LockerId) :
    exec (.purgeStall locker) s = .next (State.transmit (s.stallDue locker)) :=
  event_running running fun s => s.stallDue locker

theorem exec_restEnd (locker : LockerId) :
    exec (.restEnd locker) s = .next (State.transmit (s.restDue locker)) :=
  event_running running fun s => s.restDue locker

theorem exec_trainShiftVisit :
    exec .trainShiftVisit s = .next (State.transmit (s.shiftVisit)) :=
  event_running running fun s => s.shiftVisit

theorem exec_heatPeriodExpiry (column : Col) :
    exec (.heatPeriodExpiry column) s = .next (State.transmit (s.heatExpiry column)) :=
  event_running running fun s => s.heatExpiry column

theorem exec_doorHeld (locker : LockerId) :
    exec (.doorHeld locker) s = .next (State.transmit (s.doorHeldDue locker)) :=
  event_running running fun s => s.doorHeldDue locker

theorem exec_pollTimerExpiry :
    exec .pollTimerExpiry s = .next (State.transmit (s.pollExpiry)) :=
  event_running running fun s => s.pollExpiry

theorem exec_portGrant :
    exec .portGrant s = .next (State.transmit (s.portGrant)) :=
  event_running running fun s => s.portGrant

theorem exec_retry :
    exec .retry s = .next (State.transmit (s.retryNow)) :=
  event_running running fun s => s.retryNow

theorem exec_tryTimeout :
    exec .tryTimeout s = .next (State.transmit (s.tryTimeout)) :=
  event_running running fun s => s.tryTimeout

theorem exec_columnReply (chars : List LineChar) :
    exec (.columnReply chars) s = .next (State.transmit (s.columnChars chars)) :=
  event_running running fun s => s.columnChars chars

theorem exec_columnFrameCorrupt (chars : List LineChar) :
    exec (.columnFrameCorrupt chars) s = .next (State.transmit (s.columnChars chars)) :=
  event_running running fun s => s.columnChars chars

theorem exec_broadcastSent :
    exec .broadcastSent s = .next (State.transmit (s.broadcastSent)) :=
  event_running running fun s => s.broadcastSent

theorem exec_pollEnd (chars : List LineChar) :
    exec (.pollEnd chars) s = .next (State.transmit (s.pollEnded chars)) :=
  event_running running fun s => s.pollEnded chars

theorem exec_serverFrameReceived (chars : List LineChar) :
    exec (.serverFrameReceived chars) s = .next (State.transmit (s.serverChars chars)) :=
  event_running running fun s => s.serverChars chars

theorem exec_characterError (port : Port) (chars : List LineChar) :
    exec (.characterError port chars) s = .next (State.transmit (s.portChars port chars)) :=
  event_running running fun s => s.portChars port chars

theorem exec_badLength (port : Port) (chars : List LineChar) :
    exec (.badLength port chars) s = .next (State.transmit (s.portChars port chars)) :=
  event_running running fun s => s.portChars port chars

theorem exec_characterGapTimeout (port : Port) (chars : List LineChar) :
    exec (.characterGapTimeout port chars) s = .next (State.transmit ((s.portChars port chars).portGap port)) :=
  event_running running fun s => (s.portChars port chars).portGap port

end

end Sys2Proof.Machine
end

section
/-! Frames sent and received (chapter 7), and what both ports discard. -/

-- The declarations are elaborated one after another, which bounds the memory that their checks take at one time.
set_option Elab.async false

namespace Sys2Proof.Machine

open Config

/-! ## A frame is received as itself (07 R129 to R132) -/

/-- A field that lies within a frame's first characters is read from them alone. -/
theorem natAt_append {pre post : List Byte} {off len : Nat} (h : off + len ≤ pre.length) :
    natAt (pre ++ post) off len = natAt pre off len := by
  rw [natAt, fieldAt, List.drop_append_of_le_length (by omega), List.take_append_of_le_length (by simp; omega)]
  rfl

/-- A character that neither breaks a frame nor completes it is added to it. -/
theorem Receiver.take_more {port : Port} {cs : List Byte} {last : Time} {ch : LineChar} {b : Byte}
    (byte : ch.byte = some b)
    (more : (cs ++ [b]).length < 4
      ∨ natAt (cs ++ [b]) 3 1 ≤ maxBody ∧ (cs ++ [b]).length ≠ natAt (cs ++ [b]) 3 1 + 6) :
    (Receiver.assembling cs last).take port ch = (.assembling (cs ++ [b]) (stopBit port ch), none) := by
  simp only [Receiver.take, byte]
  split
  · rfl
  · next long =>
    obtain ⟨fits, partly⟩ := more.resolve_left long
    rw [if_neg (by omega), if_neg partly]

/-- The last character of a frame completes it. -/
theorem Receiver.take_last {port : Port} {cs : List Byte} {last : Time} {ch : LineChar} {b : Byte}
    (byte : ch.byte = some b) (fits : natAt (cs ++ [b]) 3 1 ≤ maxBody)
    (whole : (cs ++ [b]).length = natAt (cs ++ [b]) 3 1 + 6) :
    (Receiver.assembling cs last).take port ch = (.hunting, some (.complete (cs ++ [b]))) := by
  simp only [Receiver.take, byte]
  rw [if_neg (by omega), if_neg (by omega), if_pos whole]

/-- The gaps of a run of characters: the first, and those of the rest. -/
theorem gapsWithin_cons {port : Port} {ch : LineChar} {chs : List LineChar} (h : gapsWithin port (ch :: chs) = true) :
    (∀ d ∈ chs.head?, d.start ≤ stopBit port ch + gapLimit port) ∧ gapsWithin port chs = true := by
  cases chs with
  | nil => exact ⟨by simp, rfl⟩
  | cons d ds =>
    simp only [gapsWithin, Bool.and_eq_true, decide_eq_true_eq] at h
    exact ⟨by simpa using h.1, h.2⟩

/-- The rest of a frame being assembled, no gap above the limit, completes the frame. -/
theorem Receiver.hear_rest {port : Port} {chars : List LineChar} {cs bytes : List Byte} {last : Time}
    (carries : Carries chars bytes) (some_ : bytes ≠ [])
    (gap : ∀ ch ∈ chars.head?, ch.start ≤ last + gapLimit port) (gaps : gapsWithin port chars = true)
    (fits : natAt (cs ++ bytes) 3 1 ≤ maxBody) (length : (cs ++ bytes).length = natAt (cs ++ bytes) 3 1 + 6) :
    (Receiver.assembling cs last).hear port chars = (.hunting, [.complete (cs ++ bytes)]) := by
  induction bytes generalizing chars cs last with
  | nil => exact absurd rfl some_
  | cons b bs ih =>
    obtain ⟨ch, chs, rfl, byte, carries⟩ : ∃ ch chs, chars = ch :: chs ∧ ch.byte = some b ∧ Carries chs bs := by
      cases chars with
      | nil => cases carries
      | cons ch chs => exact ⟨ch, chs, rfl, (List.cons.inj carries).1, (List.cons.inj carries).2⟩
    have near : (Receiver.assembling cs last).lapsed port ch.start = false := by
      simpa [Receiver.lapsed, Receiver.gapEnd] using gap ch rfl
    have rest : cs ++ b :: bs = (cs ++ [b]) ++ bs := by simp
    rw [rest] at fits length ⊢
    rw [Receiver.hear_cons]
    simp only [near, Bool.false_eq_true, if_false, List.nil_append]
    cases bs with
    | nil =>
      rw [List.append_nil] at fits length ⊢
      cases chs with
      | nil => simp [Receiver.take_last byte fits length, Receiver.hear]
      | cons d ds => cases carries
    | cons e es =>
      have more : (cs ++ [b]).length < 4
          ∨ natAt (cs ++ [b]) 3 1 ≤ maxBody ∧ (cs ++ [b]).length ≠ natAt (cs ++ [b]) 3 1 + 6 := by
        by_cases short : (cs ++ [b]).length < 4
        · exact .inl short
        · rw [natAt_append (by omega)] at fits length
          refine .inr ⟨fits, fun full => ?_⟩
          simp only [List.length_append, List.length_cons] at length full
          omega
      rw [Receiver.take_more byte more]
      obtain ⟨next, later⟩ := gapsWithin_cons gaps
      have tail := ih (last := stopBit port ch) carries (List.cons_ne_nil _ _) next later fits length
      simp [tail]

/-- The characters of a frame, one by one. -/
theorem Frame.chars_cons (f : Frame) : ∃ hi lo : Byte, f.chars =
    startMark :: (f.dest ++ f.src : BitVec 8) :: f.kind :: BitVec.ofNat 8 f.body.length :: (f.body ++ [hi, lo]) :=
  ⟨_, _, f.chars_eq⟩

theorem Frame.length_chars (f : Frame) : f.chars.length = 6 + f.body.length := by
  obtain ⟨hi, lo, chars⟩ := f.chars_cons
  simp only [chars, List.length_cons, List.length_append, List.length_nil]
  omega

theorem beNat_singleton (b : Byte) : beNat [b] = b.toNat := by simp [beNat]

theorem Frame.bodyLength {f : Frame} (h : f.body.length ≤ 48) : natAt f.chars 3 1 = f.body.length := by
  obtain ⟨hi, lo, chars⟩ := f.chars_cons
  simp only [chars, natAt, fieldAt, List.drop_succ_cons, List.drop_zero, List.take_succ_cons, List.take_zero,
    beNat_singleton, BitVec.toNat_ofNat]
  omega

theorem toNat_stations (dest src : Station) : (dest ++ src : BitVec 8).toNat = dest.toNat * 16 + src.toNat := by
  rw [BitVec.toNat_append, ← Nat.shiftLeft_add_eq_or_of_lt src.isLt, Nat.shiftLeft_eq]

theorem frameOf_chars {f : Frame} (h : f.body.length ≤ 48) : frameOf f.chars = f := by
  have length := f.bodyLength h
  obtain ⟨hi, lo, chars⟩ := f.chars_cons
  have address : natAt f.chars 1 1 = f.dest.toNat * 16 + f.src.toNat := by
    simp [chars, natAt, fieldAt, beNat_singleton, toNat_stations]
  have kind : natAt f.chars 2 1 = f.kind.toNat := by
    simp [chars, natAt, fieldAt, beNat_singleton]
  have body : fieldAt f.chars 4 f.body.length = f.body := by
    simp [chars, fieldAt]
  have dest : (f.dest.toNat * 16 + f.src.toNat) / 16 = f.dest.toNat := by
    have := f.src.isLt
    omega
  have src : BitVec.ofNat 4 (f.dest.toNat * 16 + f.src.toNat) = f.src := by
    apply BitVec.eq_of_toNat_eq
    have := f.src.isLt
    rw [BitVec.toNat_ofNat]
    omega
  simp only [frameOf, length, address, kind, body, dest, src, BitVec.ofNat_toNat, BitVec.setWidth_eq]

theorem crcGood_chars {f : Frame} (h : f.body.length ≤ 48) : crcGood f.chars = true := by
  rw [f.chars_eq]
  refine (crcGood_iff startMark _ _ _ _ _ ?_).mpr ?_
  · rw [BitVec.toNat_ofNat]
    omega
  · rw [BitVec.extractLsb'_append_extractLsb'_eq_extractLsb' (by decide)]
    simp [Frame.covered]

/-- A hunting receiver that hears a frame's characters, no gap above the limit, completes it once. -/
theorem Receiver.hear_frame {f : Frame} (short : f.body.length ≤ 48) {port : Port} {chars : List LineChar}
    (carries : Carries chars f.chars) (gaps : gapsWithin port chars = true) :
    Receiver.hunting.hear port chars = (.hunting, [.complete f.chars]) := by
  have length := f.length_chars
  have body := f.bodyLength short
  obtain ⟨hi, lo, split⟩ := f.chars_cons
  rw [split] at carries length body ⊢
  cases chars with
  | nil => cases carries
  | cons ch chs =>
    obtain ⟨mark, carries⟩ := List.cons.inj carries
    have started : Receiver.hunting.take port ch = (.assembling [startMark] (stopBit port ch), none) := by
      simp [Receiver.take, mark]
    obtain ⟨next, later⟩ := gapsWithin_cons gaps
    have rest := Receiver.hear_rest (cs := [startMark]) (last := stopBit port ch) carries (List.cons_ne_nil _ _) next
      later (body.trans_le short) (length.trans (by rw [List.singleton_append, body, Nat.add_comm]))
    rw [Receiver.hear_cons]
    simp [started, rest]

/-- Settles O15. -/
theorem framesAreReadBack : Obligations.FramesAreReadBack := fun f _ _ short carries gaps =>
  ⟨f.length_chars, Receiver.hear_frame short carries gaps, crcGood_chars short, frameOf_chars short⟩

end Sys2Proof.Machine
end

section
/-! What the ports do with frames received and frames broken off (07 R132 to R135, 11 R196). -/

-- The declarations are elaborated one after another, which bounds the memory that their checks take at one time.
set_option Elab.async false

namespace Sys2Proof.Machine

open Config

/-! ## Frames from the server (07 R134, 11 R196) -/

theorem acceptsDest_iff (a : Station) :
    acceptsDest a = true ↔ a = 0#4 ∨ a = 15#4 ∨ 1 ≤ a.toNat ∧ a.toNat ≤ 8 := by
  simp [acceptsDest, columnOf, broadcastStation, Option.isSome_dite, or_assoc]

theorem State.replyRoom_iff (s : State) : s.replyRoom = true ↔ s.passOutstanding < 8 - s.replies.length :=
  decide_eq_true_iff

theorem State.offerInbox_room {s : State} (f : Frame) (room : s.inbox.length < 4) :
    s.offerInbox f = { s with inbox := s.inbox ++ [⟨f.dest, f.kind, f.body⟩] } := if_pos room

theorem State.offerInbox_busy {s : State} (f : Frame) (full : 4 ≤ s.inbox.length)
    (spare : s.passOutstanding < 8 - s.replies.length) :
    s.offerInbox f = { s with replies := s.replies ++ [⟨f.kind ||| 0x80#8, f.dest, [], false⟩] } :=
  (if_neg (not_lt.mpr full)).trans (if_pos (s.replyRoom_iff.mpr spare))

theorem State.offerInbox_full {s : State} (f : Frame) (full : 4 ≤ s.inbox.length)
    (none : ¬s.passOutstanding < 8 - s.replies.length) : s.offerInbox f = s.countServerDiscard :=
  (if_neg (not_lt.mpr full)).trans (if_neg fun room => none (s.replyRoom_iff.mp room))

/-- A good frame is offered to the inbox. -/
theorem State.judgeServerFrame_good {whole : List Byte} (s : State) (crc : crcGood whole = true)
    (src : (frameOf whole).src = 13#4)
    (dest : (frameOf whole).dest = 0#4 ∨ (frameOf whole).dest = 15#4
      ∨ 1 ≤ (frameOf whole).dest.toNat ∧ (frameOf whole).dest.toNat ≤ 8) :
    s.judgeServerFrame whole = s.offerInbox (frameOf whole) :=
  if_pos ⟨crc, src, (acceptsDest_iff _).mpr dest⟩

/-- Any other frame is discarded and counted. -/
theorem State.judgeServerFrame_bad {whole : List Byte} (s : State)
    (bad : ¬(crcGood whole = true ∧ (frameOf whole).src = 13#4
      ∧ ((frameOf whole).dest = 0#4 ∨ (frameOf whole).dest = 15#4
        ∨ 1 ≤ (frameOf whole).dest.toNat ∧ (frameOf whole).dest.toNat ≤ 8))) :
    s.judgeServerFrame whole = s.countServerDiscard := by
  rw [← acceptsDest_iff] at bad
  exact if_neg bad

theorem exec_serverFrame {s : State} (running : s.held = false) (hunting : s.serverRx = .hunting)
    {chars : List LineChar} {whole : List Byte}
    (heard : Receiver.hunting.hear .server chars = (.hunting, [.complete whole])) :
    exec (.serverFrameReceived chars) s =
      .next (State.transmit (State.judgeServerFrame { s with now := heardBy .server s.now chars } whole)) := by
  rw [exec_serverFrameReceived running, State.serverChars_found (by rw [hunting]; exact heard), ← hunting]
  rfl

/-- Settles O17. -/
theorem serverFramesAreJudged : Obligations.ServerFramesAreJudged := by
  intro s chars whole running hunting heard f good spare s1 counted
  rw [exec_serverFrame running hunting heard]
  refine ⟨fun bad => ?bad, fun ok room => ?room, fun ok full free => ?busy, fun ok full none => ?full⟩
  case bad => rw [State.judgeServerFrame_bad _ bad]; rfl
  all_goals
    obtain ⟨crc, src, dest⟩ := ok
    rw [State.judgeServerFrame_good _ crc src dest]
  case room =>
    rw [State.offerInbox_room]
    exact room
  case busy =>
    rw [State.offerInbox_busy]
    · exact full
    · exact free
  case full =>
    rw [State.offerInbox_full]
    · rfl
    · exact full
    · exact none

/-! ## Broken frames on the server port (07 R132 to R134) -/

/-- The gap limit runs out on the frame that the server port assembles. -/
theorem State.serverGap_assembling {s : State} {cs : List Byte} {last : Time}
    (assembling : s.serverRx = .assembling cs last) :
    s.serverGap = { s.countServerDiscard with now := max s.now (last + 2000), serverRx := .hunting } := by
  rw [State.serverGap, assembling]
  rfl

theorem State.serverGap_hunting {s : State} (hunting : s.serverRx = .hunting) : s.serverGap = s := by
  rw [State.serverGap, hunting]
  rfl

/-- A character error alone leaves a receiver that hunts as it is. -/
theorem Receiver.hear_error (port : Port) (t : Time) :
    Receiver.hunting.hear port [⟨t, none⟩] = (.hunting, []) := rfl

/-! ## Characters that a receiver disregards (07 R135) -/

/-- A receiver that assembles and finds nothing is still assembling. -/
theorem Receiver.hear_busy {port : Port} {r q : Receiver} {chars : List LineChar} (busy : r.busy = true)
    (quiet : r.hear port chars = (q, [])) : q.busy = true := by
  induction chars generalizing r with
  | nil => cases quiet; exact busy
  | cons ch chs ih =>
    obtain ⟨_, found, rest⟩ := Receiver.hear_quiet_cons quiet
    exact ih (Receiver.take_busy busy found) rest

theorem Receiver.eq_hunting {r : Receiver} (idle : r.busy = false) : r = .hunting := by
  cases r with
  | hunting => rfl
  | assembling cs last => cases idle

/-- What ends or breaks a frame leaves the receiver hunting. -/
theorem Receiver.take_found {port : Port} {r : Receiver} {ch : LineChar} {e : RxEvent}
    (found : (r.take port ch).2 = some e) : (r.take port ch).1 = .hunting := by
  unfold Receiver.take at found ⊢
  split at found
  · rfl
  · rfl
  · split at found <;> cases found
  · simp only at found ⊢
    split at found
    · cases found
    · next long =>
      rw [if_neg long]
      split
      · rfl
      · next fits =>
        rw [if_neg fits] at found
        split
        · rfl
        · next part =>
          rw [if_neg part] at found
          cases found

/-- A receiver that hunts, and hunts after characters in which it finds nothing, takes none of them. -/
theorem Receiver.hear_idle_cons {port : Port} {ch : LineChar} {chs : List LineChar}
    (idle : Receiver.hunting.hear port (ch :: chs) = (.hunting, [])) :
    Receiver.hunting.take port ch = (.hunting, none) ∧ Receiver.hunting.hear port chs = (.hunting, []) := by
  obtain ⟨_, found, rest⟩ := Receiver.hear_quiet_cons idle
  have hunts : (Receiver.hunting.take port ch).1 = .hunting := by
    refine Receiver.eq_hunting (Bool.eq_false_iff.mpr fun busy => ?_)
    have := Receiver.hear_busy busy rest
    cases this
  rw [hunts] at rest
  exact ⟨Prod.ext hunts found, rest⟩

/-- Characters in which no frame begins do no more than pass. -/
theorem State.columnChars_idle {s : State} {chars : List LineChar} (hunting : s.columnRx = .hunting)
    (idle : Receiver.hunting.hear .column chars = (.hunting, [])) :
    s.columnChars chars = { s with now := heardBy .column s.now chars } := by
  induction chars generalizing s with
  | nil => rfl
  | cons ch chs ih =>
    obtain ⟨taken, rest⟩ := Receiver.hear_idle_cons idle
    have passed : s.columnChar ch = { s with now := max s.now (stopBit .column ch) } := by
      simp only [State.columnChar, hunting, Receiver.lapsed_hunting, Bool.false_eq_true, if_false, State.reach, taken]
      split
      · rw [← hunting]
      · rfl
    show State.columnChars (s.columnChar ch) chs = _
    rw [passed]
    exact ih (s := { s with now := max s.now (stopBit .column ch) }) hunting rest

/-- While no reply is awaited the characters do no more than pass. -/
theorem State.columnChars_deaf {s : State} {chars : List LineChar} (hunting : s.columnRx = .hunting)
    (deaf : ∀ t, s.attends t = false) : s.columnChars chars = { s with now := heardBy .column s.now chars } := by
  induction chars generalizing s with
  | nil => rfl
  | cons ch chs ih =>
    have passed : s.columnChar ch = { s with now := max s.now (stopBit .column ch) } := by
      have still : (s.reach (stopBit .column ch)).attends ch.start = false := deaf ch.start
      have near : s.columnRx.lapsed .column ch.start = false := by rw [hunting]; rfl
      simp only [State.columnChar, near, Bool.false_eq_true, if_false, still]
      rfl
    show State.columnChars (s.columnChar ch) chs = _
    rw [passed]
    exact ih (s := { s with now := max s.now (stopBit .column ch) }) hunting deaf

/-! ## Broken frames on the column line (07 R132, R133, R135) -/

theorem le_heardBy (port : Port) (now : Time) (chars : List LineChar) : now ≤ heardBy port now chars := by
  induction chars generalizing now with
  | nil => exact le_rfl
  | cons ch chs ih => exact (Nat.le_max_left _ _).trans (ih _)

/-- The part at time `t` with one column frame discarded. -/
def State.columnBroken (s : State) (t : Time) : State :=
  { s.countColumnDiscard with now := t, columnRx := .hunting }

/-- A frame broken off while its window is open is counted, and the exchange goes on. -/
theorem State.columnFound_open {s : State} {x : Exchange} {c : Col} {t : Time} (hx : s.exchange = some x)
    (hd : x.dest = .column c) (hs : x.stage = .awaiting) (hw : t < x.requestEnd + 8000) :
    State.columnFound { s with now := t, columnRx := .hunting } .discarded = s.columnBroken t := by
  rw [State.columnFound_discarded (s := { s with now := t, columnRx := .hunting }) hx hd (by rw [hs]; rfl),
    State.corruptFrame_open hs hw]
  rfl

/-- The rest of a frame that is broken off while its window is open. -/
theorem State.columnChars_broken {s : State} {x : Exchange} {c : Col} {chars : List LineChar} (hx : s.exchange = some x)
    (hd : x.dest = .column c) (hs : x.stage = .awaiting) (busy : s.columnRx.busy = true)
    (breaks : s.columnRx.hear .column chars = (.hunting, [.discarded]))
    (hw : heardBy .column s.now chars < x.requestEnd + 8000) :
    s.columnChars chars = s.columnBroken (heardBy .column s.now chars) := by
  induction chars generalizing s with
  | nil => simp [Receiver.hear] at breaks
  | cons ch chs ih =>
    have soon : max s.now (stopBit .column ch) < x.requestEnd + 8000 := (le_heardBy .column _ chs).trans_lt hw
    have listens : x.stage.listens = true := by rw [hs]; rfl
    show State.columnChars (s.columnChar ch) chs = _
    cases lapsed : s.columnRx.lapsed .column ch.start with
    | true =>
      obtain ⟨cs, last, assembling⟩ : ∃ cs last, s.columnRx = .assembling cs last := by
        cases hr : s.columnRx with
        | hunting => rw [hr] at busy; cases busy
        | assembling cs last => exact ⟨cs, last, rfl⟩
      have before : last + 1000 ≤ stopBit .column ch := by
        rw [assembling] at lapsed
        have late : last + gapLimit .column < ch.start := by simpa [Receiver.lapsed, Receiver.gapEnd] using lapsed
        exact late.le.trans (Nat.le_add_right _ _)
      have gap : s.columnGap = s.columnBroken (max s.now (last + 1000)) := by
        rw [State.columnGap, assembling]
        exact State.columnFound_open hx hd hs
          ((max_le_max_left _ before).trans_lt soon)
      have same : s.columnChar ch = (s.columnBroken (max s.now (last + 1000))).columnChar ch := by
        rw [← gap]
        simp only [State.columnChar, lapsed, if_true]
        simp [gap, State.columnBroken]
      have idle : Receiver.hunting.hear .column (ch :: chs) = (.hunting, []) := by
        rw [Receiver.hear_cons, lapsed] at breaks
        rw [Receiver.hear_cons]
        simpa [Prod.ext_iff] using breaks
      rw [same]
      refine (State.columnChars_idle (s := s.columnBroken (max s.now (last + 1000))) (chars := ch :: chs) rfl
        idle).trans ?_
      have time : max (max s.now (last + 1000)) (stopBit .column ch) = max s.now (stopBit .column ch) := by
        rw [max_assoc, max_eq_right before]
      simp only [State.columnBroken, heardBy, List.foldl_cons, time]
    | false =>
      rw [Receiver.hear_cons, lapsed] at breaks
      simp only [Bool.false_eq_true, if_false, List.nil_append, Prod.mk.injEq] at breaks
      have attends := State.attends_of (t := ch.start) hx hd listens (.inl busy)
      cases found : (s.columnRx.take .column ch).2 with
      | none =>
        rw [State.columnChar_quiet lapsed attends (Prod.ext rfl found)]
        rw [found] at breaks
        exact ih (s := { s with now := max s.now (stopBit .column ch), columnRx := (s.columnRx.take .column ch).1 })
          hx (Receiver.take_busy busy found) (Prod.ext breaks.1 (by simpa using breaks.2)) hw
      | some e =>
        have hunts := Receiver.take_found found
        rw [found, hunts] at breaks
        obtain ⟨rest, events⟩ := breaks
        obtain ⟨rfl, quiet⟩ : e = .discarded ∧ (Receiver.hunting.hear .column chs).2 = [] := by simpa using events
        rw [State.columnChar_found lapsed attends (Prod.ext hunts found), State.columnFound_open hx hd hs soon,
          State.columnChars_idle rfl (Prod.ext rest quiet)]
        rfl

/-- A frame begun in the reply window and broken off while the window is open. -/
theorem State.Awaits.broken {s : State} {x : Exchange} {c : Col} {chars : List LineChar} (hs : s.Awaits x c)
    (ho : x.opensWith chars) (breaks : Receiver.hunting.hear .column chars = (.hunting, [.discarded]))
    (hw : heardBy .column s.now chars < x.requestEnd + 8000) :
    s.columnChars chars = s.columnBroken (heardBy .column s.now chars) := by
  obtain ⟨_, hx, hd, stage, hunting⟩ := hs
  obtain ⟨ch, rest, rfl, mark, low, high⟩ := ho
  have inWindow : x.inWindow ch.start = true := by
    simp only [Exchange.inWindow, Bool.and_eq_true, decide_eq_true_eq]
    exact ⟨low, high⟩
  have taken : s.columnRx.take .column ch = (.assembling [startMark] (stopBit .column ch), none) := by
    simp [hunting, Receiver.take, mark]
  have attends := State.attends_of (t := ch.start) hx hd (by rw [stage]; rfl) (.inr inWindow)
  show State.columnChars (s.columnChar ch) rest = _
  rw [State.columnChar_quiet (by rw [hunting]; rfl) attends taken]
  refine State.columnChars_broken
    (s := { s with now := max s.now (stopBit .column ch), columnRx := .assembling [startMark] (stopBit .column ch) })
    hx hd stage rfl ?_ hw
  rw [hunting] at taken
  rw [Receiver.hear_cons, Receiver.lapsed_hunting] at breaks
  simpa [taken, Prod.ext_iff] using breaks

/-- The gap limit runs out on the frame that the column receiver assembles. -/
theorem State.columnGap_assembling {s : State} {x : Exchange} {c : Col} {cs : List Byte} {last : Time}
    (hx : s.exchange = some x) (hd : x.dest = .column c) (listens : x.stage.listens = true)
    (assembling : s.columnRx = .assembling cs last) :
    s.columnGap = State.corruptFrame { s with now := max s.now (last + 1000), columnRx := .hunting } x c := by
  rw [State.columnGap, assembling]
  exact State.columnFound_discarded (x := x) hx hd listens

theorem State.columnGap_hunting {s : State} (hunting : s.columnRx = .hunting) : s.columnGap = s := by
  rw [State.columnGap, hunting]
  rfl

/-- A frame that ends without being the reply, its window closed, ends the try. -/
theorem State.FrameEndsTry.exec {s : State} {x : Exchange} {c : Col} {cmd : Instr} {t : Time}
    (h : s.FrameEndsTry x c cmd t) :
    exec cmd s = .next (State.transmit ((s.columnBroken t).endTry x c)) := by
  obtain ⟨chars, begun, ends⟩ := h
  have running : s.held = false := by
    rcases begun with ⟨awaits, _⟩ | ⟨running, _⟩
    · exact awaits.1
    · exact running
  have listening : s.Awaits x c ∧ x.opensWith chars
      ∨ s.exchange = some x ∧ x.dest = .column c ∧ x.stage.listens = true ∧ s.columnRx.busy = true := by
    rcases begun with ⟨awaits, opens, _⟩ | ⟨_, hx, hd, stage, busy⟩
    · exact .inl ⟨awaits, opens⟩
    · exact .inr ⟨hx, hd, by rw [stage]; rfl, busy⟩
  have target : s.exchange = some x ∧ x.dest = .column c ∧ x.stage.listens = true := by
    rcases begun with ⟨⟨_, hx, hd, stage, _⟩, _⟩ | ⟨_, hx, hd, stage, _⟩
    · exact ⟨hx, hd, by rw [stage]; rfl⟩
    · exact ⟨hx, hd, by rw [stage]; rfl⟩
  obtain ⟨hx, hd, listens⟩ := target
  have shut (u : State) (now : u.now = t) : u.corruptFrame x c = u.countColumnDiscard.endTry x c := by
    rcases begun with ⟨_, _, closed⟩ | ⟨_, _, _, stage, _⟩
    · exact State.corruptFrame_over (by rw [now]; exact closed)
    · simp [State.corruptFrame, stage]
  rcases ends with ⟨command, breaks, rfl⟩ | ⟨rfl, ⟨whole, finds, other⟩, rfl⟩ | ⟨rfl, cs, last, heard, rfl⟩
  · have broken : s.columnChars chars = (s.columnBroken (heardBy .column s.now chars)).endTry x c := by
      rw [State.columnChars_findsLast listening breaks,
        State.columnFound_discarded (s := { s with now := heardBy .column s.now chars, columnRx := .hunting }) hx hd
          listens, shut _ rfl]
      rfl
    rcases command with rfl | rfl
    · rw [exec_characterError running, ← broken]
      rfl
    · rw [exec_badLength running, ← broken]
      rfl
  · have wrong : s.columnChars chars = (s.columnBroken (heardBy .column s.now chars)).endTry x c := by
      rw [State.columnChars_findsLast listening finds,
        State.columnFound_other (s := { s with now := heardBy .column s.now chars, columnRx := .hunting }) hx hd listens
          other, shut _ rfl]
      rfl
    rw [exec_columnFrameCorrupt running, wrong]
  · have begunFrame : s.columnChars chars =
        { s with now := heardBy .column s.now chars, columnRx := .assembling cs last } := by
      rcases listening with ⟨awaits, opens⟩ | ⟨_, _, _, busy⟩
      · have hunting := awaits.2.2.2.2
        exact State.columnChars_begun awaits opens (hunting ▸ heard)
      · exact State.columnChars_busy hx hd listens busy heard
    rw [exec_characterGapTimeout running]
    show Host.Outcome.next (State.transmit (s.columnChars chars).columnGap) = _
    rw [begunFrame, State.columnGap_assembling
      (s := { s with now := heardBy .column s.now chars, columnRx := .assembling cs last }) hx hd listens rfl, shut _ rfl]
    rfl

/-- The try ends with the next one due. -/
theorem State.endTry_again (s : State) {x : Exchange} (c : Col) (stands : x.abandoned = false) (more : x.tryNo < 3) :
    s.endTry x c = { s with exchange := some { x with stage := .retryFrom s.now }, columnRx := .hunting } := by
  simp [State.endTry, stands, more]

/-! ## The obligation -/

theorem exec_server_broken {s : State} (running : s.held = false) {chars : List LineChar}
    (breaks : s.serverRx.hear .server chars = (.hunting, [.discarded])) :
    event (fun s => s.portChars .server chars) s = .next (State.transmit
      { s.countServerDiscard with now := heardBy .server s.now chars, serverRx := .hunting }) := by
  rw [event_running running]
  show Host.Outcome.next (State.transmit (s.serverChars chars)) = _
  rw [State.serverChars_found breaks]
  rfl

theorem exec_server_gap {s : State} (running : s.held = false) {chars : List LineChar} {cs : List Byte} {last : Time}
    (heard : s.serverRx.hear .server chars = (.assembling cs last, [])) :
    exec (.characterGapTimeout .server chars) s = .next (State.transmit
      { s.countServerDiscard with now := max (heardBy .server s.now chars) (last + 2000), serverRx := .hunting }) := by
  rw [exec_characterGapTimeout running]
  show Host.Outcome.next (State.transmit (s.serverChars chars).serverGap) = _
  rw [State.serverChars_quiet heard, State.serverGap_assembling (cs := cs) (last := last) rfl]
  rfl

theorem exec_server_hunting {s : State} (running : s.held = false) (hunting : s.serverRx = .hunting) :
    exec (.characterGapTimeout .server []) s = .next s.transmit
      ∧ ∀ t, exec (.characterError .server [⟨t, none⟩]) s =
          .next (State.transmit { s with now := heardBy .server s.now [⟨t, none⟩] }) := by
  refine ⟨(exec_characterGapTimeout running _ _).trans ?_, fun t => (exec_characterError running _ _).trans ?_⟩
  · show Host.Outcome.next (State.transmit s.serverGap) = _
    rw [State.serverGap_hunting hunting]
  · show Host.Outcome.next (State.transmit (s.serverChars [⟨t, none⟩])) = _
    rw [State.serverChars_quiet (r := .hunting) (by rw [hunting]; exact Receiver.hear_error _ t), ← hunting]

theorem exec_column_broken {s : State} {x : Exchange} {c : Col} {chars : List LineChar} (hs : s.Awaits x c)
    (ho : x.opensWith chars) (breaks : Receiver.hunting.hear .column chars = (.hunting, [.discarded]))
    (hw : heardBy .column s.now chars < x.requestEnd + 8000) :
    event (fun s => s.portChars .column chars) s =
      .next (State.transmit (s.columnBroken (heardBy .column s.now chars))) := by
  rw [event_running hs.1]
  show Host.Outcome.next (State.transmit (s.columnChars chars)) = _
  rw [hs.broken ho breaks hw]

theorem exec_column_gap {s : State} {x : Exchange} {c : Col} {chars : List LineChar} {cs : List Byte} {last : Time}
    (hs : s.Awaits x c) (ho : x.opensWith chars)
    (heard : Receiver.hunting.hear .column chars = (.assembling cs last, [])) :
    exec (.characterGapTimeout .column chars) s = .next (State.transmit (State.corruptFrame
      { s with now := max (heardBy .column s.now chars) (last + 1000), columnRx := .hunting } x c)) := by
  have ⟨running, hx, hd, stage, _⟩ := hs
  rw [exec_characterGapTimeout running]
  show Host.Outcome.next (State.transmit (s.columnChars chars).columnGap) = _
  rw [State.columnChars_begun hs ho heard,
    State.columnGap_assembling (s := { s with now := heardBy .column s.now chars, columnRx := .assembling cs last })
      hx hd (by rw [stage]; rfl) rfl]

theorem exec_column_hunting {s : State} (running : s.held = false) (hunting : s.columnRx = .hunting) :
    exec (.characterGapTimeout .column []) s = .next s.transmit
      ∧ ∀ t, exec (.characterError .column [⟨t, none⟩]) s =
          .next (State.transmit { s with now := heardBy .column s.now [⟨t, none⟩] }) := by
  refine ⟨(exec_characterGapTimeout running _ _).trans ?_, fun t => (exec_characterError running _ _).trans ?_⟩
  · show Host.Outcome.next (State.transmit s.columnGap) = _
    rw [State.columnGap_hunting hunting]
  · show Host.Outcome.next (State.transmit (s.columnChars [⟨t, none⟩])) = _
    rw [State.columnChars_idle hunting (Receiver.hear_error _ t)]

/-- No reply is awaited while a broadcast, a POLL or the wait for a retry is under way. -/
theorem State.attends_none {s : State}
    (other : ∀ y, s.exchange = some y → y.stage = .broadcast ∨ y.stage = .slots ∨ ∃ t, y.stage = .retryFrom t)
    (t : Time) : s.attends t = false := by
  unfold State.attends
  split
  · rfl
  · next y hy =>
    split
    · rfl
    · rcases other y hy with stage | stage | ⟨u, stage⟩ <;> simp [stage, ExStage.listens]

theorem exec_column_deaf {s : State} {chars : List LineChar} (running : s.held = false)
    (hunting : s.columnRx = .hunting) (deaf : ∀ t, s.attends t = false) :
    exec (.characterError .column chars) s =
        .next (State.transmit { s with now := heardBy .column s.now chars })
      ∧ exec (.characterGapTimeout .column chars) s =
        .next (State.transmit { s with now := heardBy .column s.now chars })
      ∧ exec (.badLength .column chars) s =
        .next (State.transmit { s with now := heardBy .column s.now chars }) := by
  have passed := State.columnChars_deaf (chars := chars) hunting deaf
  refine ⟨(exec_characterError running _ _).trans ?_, (exec_characterGapTimeout running _ _).trans ?_,
    (exec_badLength running _ _).trans ?_⟩
  · rw [← passed]
    rfl
  · show Host.Outcome.next (State.transmit (s.columnChars chars).columnGap) = _
    rw [passed, State.columnGap_hunting]
    exact hunting
  · rw [← passed]
    rfl

/-- Settles O18. -/
theorem portsDiscardBrokenFrames : Obligations.PortsDiscardBrokenFrames := by
  refine ⟨fun s chars cs last running => ?server, fun s x c chars cs last => ?column⟩
  case server =>
    exact ⟨fun breaks => ⟨exec_server_broken running breaks, exec_server_broken running breaks⟩,
      exec_server_gap running, exec_server_hunting running⟩
  case column =>
    refine ⟨fun awaits opens => ⟨fun breaks soon => ?broken, fun heard => ⟨fun soon => ?gap, fun closed stands more =>
      ?shut⟩⟩, fun t stands more => ⟨fun ends => ?error, fun ends => ?length⟩, exec_column_hunting,
      fun running hunting other => exec_column_deaf running hunting (State.attends_none other)⟩
    case broken =>
      have counted := exec_column_broken awaits opens breaks soon
      rw [State.columnBroken, ← awaits.2.2.2.2] at counted
      exact ⟨counted, counted⟩
    case gap =>
      rw [exec_column_gap awaits opens heard, State.corruptFrame_open awaits.2.2.2.1 soon, ← awaits.2.2.2.2]
      rfl
    case shut =>
      rw [exec_column_gap awaits opens heard, State.corruptFrame_over closed, State.endTry_again _ c stands more,
        ← awaits.2.2.2.2]
      rfl
    case error => rw [ends.exec, State.endTry_again _ c stands more]; rfl
    case length => rw [ends.exec, State.endTry_again _ c stands more]; rfl

end Sys2Proof.Machine
end

section
/-! The transmitter, the notices and the requests to the Management Interpreter (chapter 11). -/

-- The declarations are elaborated one after another, which bounds the memory that their checks take at one time.
set_option Elab.async false

namespace Sys2Proof.Machine

open Config

/-! ## The transmitter and the notice queue (11 R198, R199) -/

theorem State.transmit_busy {s : State} (busy : s.sending.isSome) : s.transmit = s := if_pos busy

theorem State.transmit_reply {s : State} {r : Reply} {rs : List Reply} (idle : s.sending = none)
    (head : s.replies = r :: rs) :
    s.transmit = { s with replies := rs, sending := some ⟨r.frame.chars, r.restart⟩ } := by
  simp [State.transmit, idle, head]

theorem State.fillGap_eq (s : State) :
    s.fillGap = { s with notices := if 0 < s.gap then s.notices ++ [.gap s.gap] else s.notices, gap := 0 } := by
  unfold State.fillGap
  split
  · rfl
  · next none =>
    have zero : s.gap = 0 := by omega
    rw [← zero]

theorem State.transmit_notice {s : State} {n : Notice} {ns : List Notice} (idle : s.sending = none)
    (empty : s.replies = []) (head : s.notices = n :: ns) :
    s.transmit = { s with notices := if 0 < s.gap then ns ++ [.gap s.gap] else ns, gap := 0
                          sending := some ⟨n.frame.chars, false⟩ } := by
  simp [State.transmit, idle, empty, head, State.fillGap_eq]

theorem State.transmitEnd_idle {s : State} {f : Sending} (sending : s.sending = some f) (plain : f.restart = false) :
    s.transmitEnd = { s with sending := none } := by
  simp [State.transmitEnd, sending, plain]

theorem State.queueNotice_room {s : State} (n : Notice) (room : s.notices.length < 64) :
    s.queueNotice n = { s with notices := s.notices ++ [n] } := if_pos room

theorem State.queueNotice_full {s : State} (n : Notice) (full : 64 ≤ s.notices.length) :
    s.queueNotice n =
      { s with gap := min 65535 (s.gap + 1)
               counters := { s.counters with noticesLost := min 4294967295 (s.counters.noticesLost + 1) } } :=
  if_neg (not_lt.mpr full)

/-! ## Encodings (07 Table 7-9, R147) -/

theorem u8_eq (n : Nat) : u8 n = [BitVec.ofNat 8 n] := by simp [u8, beBytes]

theorem beBytes_length (width n : Nat) : (beBytes width n).length = width := by
  induction width with
  | zero => rfl
  | succ w ih => rw [beBytes, List.length_cons, ih]

/-- The characters of a number, counted from its low end. -/
theorem beBytes_getElem? (width n i : Nat) (h : i < width) :
    (beBytes width n)[i]? = some (BitVec.ofNat 8 (n / 256 ^ (width - 1 - i))) := by
  induction width generalizing i with
  | zero => exact absurd h (Nat.not_lt_zero i)
  | succ w ih =>
    cases i with
    | zero => simp [beBytes]
    | succ i =>
      have place : w + 1 - 1 - (i + 1) = w - 1 - i := by omega
      rw [beBytes, List.getElem?_cons_succ, ih i (by omega), place]

/-- The fields of a locker's and a column's notices. -/
theorem lockerByte_some (l : LockerId) : lockerByte (some l) = beBytes 1 (l.val + 1) := rfl

theorem columnByte_some (c : Col) : columnByte (some c) = beBytes 1 (c.val + 1) := rfl

theorem lockerByte_none : lockerByte none = [0#8] := rfl

theorem columnByte_none : columnByte none = [0#8] := rfl

/-- Settles O19. -/
theorem transmitterAndNoticeQueue : Obligations.TransmitterAndNoticeQueue := by
  refine ⟨⟨fun _ => State.transmit_busy, fun _ _ _ => State.transmit_reply, fun _ _ _ => State.transmit_notice,
    fun _ _ => State.transmit_of_empty, fun s f running sending plain => ?_⟩,
    fun s n => ⟨State.queueNotice_room n, State.queueNotice_full n⟩, ?carries,
    fun width n => ⟨beBytes_length width n, beBytes_getElem? width n⟩, rfl, rfl, fun _ => rfl, rfl⟩
  · rw [exec_transmitEnd running, State.transmitEnd_idle sending plain]
  case carries =>
    intro tag close train shifted skipped k l c scanned late raw reason fault state m st
    simp [Notice.kind, Notice.body, lockerByte_some, columnByte_some, lockerByte_none, columnByte_none, smallCount,
      u8, markByte, Side.code, beBytes]

/-! ## Requests that wait, and unknown kinds (11 R197) -/

theorem State.canTake_iff (s : State) :
    s.canTake = true ↔ s.passOutstanding < 8 - s.replies.length ∧ s.restartPending = false := by
  rw [State.canTake, Bool.and_eq_true, State.replyRoom_iff, Bool.not_eq_true']

theorem State.takeRequest_waits {s : State} (waits : ¬s.canTake = true) (kind : Byte)
    (act : State → List Byte → State) : s.takeRequest kind act = s := by
  unfold State.takeRequest
  split
  · rfl
  · exact if_neg fun takes => waits takes.2.2

theorem State.takeUnknown_waits {s : State} (waits : ¬s.canTake = true) : s.takeUnknown = s := by
  unfold State.takeUnknown
  split
  · rfl
  · exact if_neg fun takes => waits takes.2.2

theorem State.takePass_waits {s : State} (waits : ¬s.canTake = true) : s.takePass = s := by
  unfold State.takePass
  split
  · rfl
  · split
    · rfl
    · exact if_neg waits

/-- A request that waits leaves nothing but the transmitter to run. -/
theorem request_waits {s : State} (running : s.held = false) (waits : ¬s.canTake = true) (kind : Byte)
    (act : State → List Byte → State) : event (fun s => s.takeRequest kind act) s = .next s.transmit := by
  rw [event_running running, State.takeRequest_waits waits]

theorem State.takeUnknown_head {s : State} {kind : Byte} {body : List Byte} {rest : List InboxFrame}
    (head : s.HeadIs kind body rest) (unknown : ¬(0x40 ≤ kind.toNat ∧ kind.toNat ≤ 0x50)) :
    s.takeUnknown = s.answered rest (kind ||| 0x80#8) [0x4B#8] := by
  have takes := head.canTake
  obtain ⟨_, _, _, inbox⟩ := head
  have other : isManagement kind = false := decide_eq_false unknown
  simp only [State.takeUnknown, inbox, other, takes]
  rfl

/-- Settles O20. -/
theorem requestsWaitAndUnknownKindsAreAnswered : Obligations.RequestsWaitAndUnknownKindsAreAnswered := by
  refine ⟨fun s c running blocked listed => ?_, fun s kind body rest head unknown => ?_⟩
  · have waits : ¬s.canTake = true := by
      rw [State.canTake_iff]
      rintro ⟨room, stands⟩
      rcases blocked with full | pending
      · omega
      · rw [stands] at pending
        cases pending
    have request := request_waits running waits
    simp only [List.mem_cons, List.not_mem_nil, or_false] at listed
    rcases listed with rfl | rfl | rfl | rfl | rfl | rfl | rfl | rfl | rfl | rfl | rfl | rfl | rfl | rfl | rfl | rfl
      | rfl | rfl | rfl
    · exact request 0x40#8 State.resPut
    · exact request 0x41#8 State.resDrop
    · exact request 0x42#8 State.resShift
    · exact request 0x43#8 State.trainShift
    · exact request 0x44#8 State.resRead
    · exact request 0x45#8 State.clockSetRequest
    · exact request 0x46#8 State.lockerRead
    · exact request 0x47#8 State.faultClear
    · exact request 0x48#8 State.classSet
    · exact request 0x49#8 State.columnSet
    · exact request 0x4A#8 State.purgeAbort
    · exact request 0x4B#8 State.rollCall
    · exact request 0x4C#8 State.columnRead
    · exact request 0x4D#8 State.filterSet
    · exact request 0x4E#8 State.modeSet
    · exact request 0x4F#8 State.statsRead
    · exact request 0x50#8 State.restartRequest
    · rw [exec_unknownKind running, State.takeUnknown_waits waits]
    · rw [exec_passThrough running, State.takePass_waits waits]
  · rw [exec_unknownKind head.1, State.takeUnknown_head head unknown]

/-! ## FILTER-SET (11 R200) -/

theorem filterSetReq_three (kind action multi : Byte) :
    filterSetReq [kind, action, multi] = some ⟨kind, action.toNat, multi.toNat⟩ := by
  simp [filterSetReq, natAt, fieldAt, beNat]

theorem filterIndex_inside {kind : Byte} (low : 0x10 ≤ kind.toNat) (high : kind.toNat ≤ 0x3F) :
    (filterIndex kind).map Fin.val = some (kind.toNat - 0x0F) := by
  have other : kind ≠ 0x09#8 := by rintro rfl; simp at low
  rw [filterIndex, if_neg other, dif_pos ⟨low, high⟩]
  rfl

theorem filterIndex_none {kind : Byte} (nine : kind ≠ 0x09#8) (outside : ¬(0x10 ≤ kind.toNat ∧ kind.toNat ≤ 0x3F)) :
    filterIndex kind = none := by
  rw [filterIndex, if_neg nine, dif_neg outside]

theorem filterActionOf_none {n : Nat} (h : 2 < n) : filterActionOf n = none := by
  rw [filterActionOf, if_neg (by omega), if_neg (by omega), if_neg (by omega)]

theorem filterActionOf_code {n : Nat} {a : FilterAction} (h : filterActionOf n = some a) : a.code = n := by
  unfold filterActionOf at h
  split at h
  · next zero => cases h; exact zero.symm
  · split at h
    · next one => cases h; exact one.symm
    · split at h
      · next two => cases h; exact two.symm
      · cases h

theorem markOf_none {n : Nat} (h : 1 < n) : markOf n = none := by
  rw [markOf, if_neg (by omega), if_neg (by omega)]

theorem markOf_le {n : Nat} (h : n ≤ 1) : markOf n = some (decide (n = 1)) := by
  unfold markOf
  split
  · next zero => simp [zero]
  · next pos =>
    have one : n = 1 := by omega
    simp [one]

theorem markByte_decide {b : Byte} (h : b.toNat ≤ 1) : markByte (decide (b = 1#8)) = b := by
  have two : b = 0#8 ∨ b = 1#8 := by
    have := BitVec.eq_of_toNat_eq (x := b) (y := BitVec.ofNat 8 b.toNat) (by simp)
    interval_cases b.toNat
    · exact .inl this
    · exact .inr this
  rcases two with rfl | rfl <;> rfl

theorem byte_eq_one (b : Byte) : b.toNat = 1 ↔ b = 1#8 := by
  constructor
  · exact fun h => BitVec.eq_of_toNat_eq h
  · rintro rfl
    rfl

/-- FILTER-SET with fields that name no entry, no action or no mark. -/
theorem State.filterSet_bad {s : State} {kind action multi : Byte}
    (bad : ¬(kind = 0x09#8 ∨ 0x10 ≤ kind.toNat ∧ kind.toNat ≤ 0x3F) ∨ 2 < action.toNat ∨ 1 < multi.toNat
      ∨ kind = 0x09#8 ∧ multi = 1#8) :
    s.filterSet [kind, action, multi] = s.answer 0x4D#8 .badField [] := by
  simp only [State.filterSet, filterSetReq_three]
  split
  · next k a m hk ha hm =>
    refine if_pos ?_
    rcases bad with none | high | high | ⟨rfl, rfl⟩
    · rw [not_or] at none
      rw [filterIndex_none none.1 none.2] at hk
      cases hk
    · rw [filterActionOf_none high] at ha
      cases ha
    · rw [markOf_none high] at hm
      cases hm
    · cases hm
      rfl
  · rfl

/-- FILTER-SET writes the entry it names. -/
theorem State.filterSet_good {s : State} {kind action multi : Byte} {k : Fin 49} {a : FilterAction}
    (hk : filterIndex kind = some k) (ha : filterActionOf action.toNat = some a) (mark : multi.toNat ≤ 1)
    (single : ¬(kind = 0x09#8 ∧ multi = 1#8)) :
    s.filterSet [kind, action, multi] =
      State.answer { s with filter := s.filter.set k ⟨a, decide (multi = 1#8)⟩ } 0x4D#8 .ok [action, multi] := by
  have report : u8 a.code ++ [markByte (decide (multi = 1#8))] = [action, multi] := by
    rw [filterActionOf_code ha, markByte_decide mark, u8_eq, BitVec.ofNat_toNat, BitVec.setWidth_eq]
    rfl
  simp only [State.filterSet, filterSetReq_three, hk, ha, markOf_le mark, byte_eq_one, report]
  refine if_neg ?_
  simpa [and_comm] using single

/-- Settles O21. -/
theorem filterSetWritesOneEntry : Obligations.FilterSetWritesOneEntry := by
  refine ⟨rfl, fun _ => filterIndex_inside, fun _ => filterIndex_none, rfl, fun s body rest head => ⟨fun length => ?_,
    fun kind action multi hbody => ⟨fun bad => ?_, fun k a m good hk ha hm => ?_⟩⟩⟩
  · rw [exec_filterSet head, State.filterSet, filterSetReq, if_neg length]
    rfl
  · subst hbody
    rw [exec_filterSet head, State.filterSet_bad bad]
    rfl
  · subst hbody hm
    obtain ⟨_, _, mark, single⟩ := by simpa only [not_or] using good
    rw [exec_filterSet head, State.filterSet_good hk ha (not_lt.mp mark) single]
    rfl

/-! ## MODE-SET (11 R204, R205) -/

theorem numberReq_length {n : Nat} {body : List Byte} (h : body.length ≠ n) : numberReq n body = none := if_neg h

theorem numberReq_byte (b : Byte) : numberReq 1 [b] = some b.toNat := by
  simp [numberReq, natAt, fieldAt, beNat]

/-- A notice and a reply enter their queues independently. -/
theorem State.answer_queueNotice (s : State) (n : Notice) (k : Byte) (st : Status) (data : List Byte) :
    (s.queueNotice n).answer k st data = (s.answer k st data).queueNotice n := by
  unfold State.queueNotice
  split
  · next room => exact (if_pos room).symm
  · next full => exact (if_neg full).symm

theorem State.modeSet_none {s : State} {body : List Byte} (h : (numberReq 1 body).bind opModeOf = none) :
    s.modeSet body = s.answer 0x4E#8 .badField [] := by
  simp only [State.modeSet, h]

/-- MODE-SET for RUN or DRAIN. -/
theorem State.modeSet_mode {s : State} {body : List Byte} {m : OpMode}
    (h : (numberReq 1 body).bind opModeOf = some m) (other : m ≠ .starting) :
    s.modeSet body =
      if s.mode = .starting then s.answer 0x4E#8 .notNow []
      else if s.mode = m then s.answer 0x4E#8 .ok (u8 m.code)
      else (s.changeMode m).answer 0x4E#8 .ok (u8 m.code) := by
  cases m with
  | starting => exact absurd rfl other
  | run => simp only [State.modeSet, h]
  | drain => simp only [State.modeSet, h]

theorem State.modeSet_other {s : State} {b : Byte} (run : b ≠ 1#8) (drain : b ≠ 2#8) :
    s.modeSet [b] = s.answer 0x4E#8 .badField [] := by
  have one : b.toNat ≠ 1 := fun h => run (BitVec.eq_of_toNat_eq h)
  have two : b.toNat ≠ 2 := fun h => drain (BitVec.eq_of_toNat_eq h)
  simp only [State.modeSet, numberReq_byte, Option.bind_some, opModeOf, if_neg one, if_neg two]
  split
  · rfl
  · rfl
  · next found => split at found <;> simp_all

theorem State.modeSet_run (s : State) : s.modeSet [1#8] =
    if s.mode = .starting then s.answer 0x4E#8 .notNow []
    else if s.mode = .run then s.answer 0x4E#8 .ok [1#8]
    else (s.changeMode .run).answer 0x4E#8 .ok [1#8] :=
  State.modeSet_mode (by rw [numberReq_byte]; rfl) (by decide)

theorem State.modeSet_drain (s : State) : s.modeSet [2#8] =
    if s.mode = .starting then s.answer 0x4E#8 .notNow []
    else if s.mode = .drain then s.answer 0x4E#8 .ok [2#8]
    else (s.changeMode .drain).answer 0x4E#8 .ok [2#8] :=
  State.modeSet_mode (by rw [numberReq_byte]; rfl) (by decide)

theorem State.resPut_drain {s : State} {body : List Byte} (drain : s.mode = .drain) (length : body.length = 20) :
    s.resPut body = s.answer 0x40#8 .notNow [] := by
  simp only [State.resPut, resPutReq, if_pos length, drain]

theorem State.backScan_drain {s : State} (drain : s.mode = .drain) (c : Col) (tag : Nat) :
    s.backScan c tag = if s.reachable c then s.enqueue (panelOp c .back .bankClosing) else s := by
  simp only [State.backScan, drain]
  rfl

/-- Settles O22. -/
theorem modeSetMovesBetweenRunAndDrain : Obligations.ModeSetMovesBetweenRunAndDrain := by
  refine ⟨fun s body rest head => ⟨fun length => ?_, fun b hbody => ?modes⟩, fun s body rest drain head length => ?_,
    fun s c tag drain => State.backScan_drain drain c tag⟩
  · rw [exec_modeSet head, State.modeSet_none (by rw [numberReq_length length]; rfl)]
    rfl
  case modes =>
    subst hbody
    rw [exec_modeSet head]
    refine ⟨fun run drain => ?bad, fun named starting => ?starting, fun same => ?same, fun named from_ => ?run,
      fun named from_ => ?drain⟩
    case bad => rw [State.modeSet_other run drain]; rfl
    case starting =>
      rcases named with rfl | rfl
      · rw [State.modeSet_run, if_pos starting]; rfl
      · rw [State.modeSet_drain, if_pos starting]; rfl
    case same =>
      rcases same with ⟨rfl, run⟩ | ⟨rfl, drain⟩
      · rw [State.modeSet_run, if_neg (by simp [run]), if_pos run]; rfl
      · rw [State.modeSet_drain, if_neg (by simp [drain]), if_pos drain]; rfl
    case run =>
      subst named
      rw [State.modeSet_run, if_neg (by simp [from_]), if_neg (by simp [from_]), State.changeMode,
        State.answer_queueNotice]
      rfl
    case drain =>
      subst named
      rw [State.modeSet_drain, if_neg (by simp [from_]), if_neg (by simp [from_]), State.changeMode,
        State.answer_queueNotice]
      rfl
  · rw [exec_resPut head, State.resPut_drain (s := { s with inbox := rest }) drain length]
    rfl

/-! ## STATS-READ and RESTART (11 R206, R207) -/

/-- Settles O23. -/
theorem statsReadReportsAndClears : Obligations.StatsReadReportsAndClears := by
  intro s body rest head k report
  rw [exec_statsRead head]
  refine ⟨fun length => ?_, fun b hbody high => ?_, fun hbody => ?_, fun hbody => ?_⟩
  · rw [State.statsRead, numberReq_length length]; rfl
  · rw [hbody, State.statsRead, numberReq_byte, Option.bind_some, markOf_none high]; rfl
  · rw [hbody, State.statsRead, numberReq_byte]; rfl
  · rw [hbody, State.statsRead, numberReq_byte]; rfl

/-- Settles O24. -/
theorem restartIsAnsweredAndPending : Obligations.RestartIsAnsweredAndPending := by
  intro s body rest head
  rw [exec_restart head]
  refine ⟨fun some_ => ?_, fun empty => ?_⟩
  · rw [State.restartRequest, if_neg (by simpa using some_)]; rfl
  · rw [empty]; rfl

end Sys2Proof.Machine
end

section
/-! RESTART in effect (11 R208, 08 R160) and pass-through (11 R201, R202). -/

-- The declarations are elaborated one after another, which bounds the memory that their checks take at one time.
set_option Elab.async false

namespace Sys2Proof.Machine

open Config

/-! ## The exchange abandoned (08 R160) -/

theorem State.abandon_idle {s : State} (idle : s.exchange = none) : s.abandon = s := by
  simp [State.abandon, idle]

/-- An exchange that waits for a retry ends at once. -/
theorem State.abandon_waiting {s : State} {x : Exchange} {w : Time} {c : Col} (hx : s.exchange = some x)
    (stage : x.stage = .retryFrom w) (dest : x.dest = .column c) :
    s.abandon = s.clearLine.setColumn c { s.column c with quiet := some (w + 10000) } := by
  conv_lhs => simp only [State.abandon, hx, stage, dest]
  rfl

/-- Any other exchange runs its course. -/
theorem State.abandon_running {s : State} {x : Exchange} (hx : s.exchange = some x)
    (other : ∀ w c, x.stage = .retryFrom w → x.dest ≠ .column c) :
    s.abandon = { s with exchange := some { x with abandoned := true } } := by
  cases stage : x.stage with
  | retryFrom w =>
    cases dest : x.dest with
    | column c => exact absurd dest (other w c stage)
    | all => simp [State.abandon, hx, stage, dest]
  | _ => simp [State.abandon, hx, stage]

/-- What abandoning an exchange leaves as it is. -/
structure State.Abandons (s t : State) : Prop where
  outside : t = { s with exchange := t.exchange, released := t.released, columnRx := t.columnRx
                         reserve := t.reserve, columns := t.columns }
  column : ∀ c, t.column c = { s.column c with quiet := (t.column c).quiet }

theorem State.abandon_abandons (s : State) : s.Abandons s.abandon := by
  cases hx : s.exchange with
  | none => exact (State.abandon_idle hx).symm ▸ ⟨rfl, fun _ => rfl⟩
  | some x =>
    by_cases other : ∀ w c, x.stage = .retryFrom w → x.dest ≠ .column c
    · exact (State.abandon_running hx other).symm ▸ ⟨rfl, fun _ => rfl⟩
    · obtain ⟨w, c, stage, dest⟩ : ∃ w c, x.stage = .retryFrom w ∧ x.dest = .column c := by
        simpa only [not_forall, not_not, exists_prop] using other
      rw [State.abandon_waiting hx stage dest]
      refine ⟨rfl, fun k => ?_⟩
      rw [State.column_setColumn]
      split
      · next same => rw [same]
      · rfl

/-! ## RESTART in effect (11 R208) -/

theorem exec_transmitEnd_restart {s : State} {f : Sending} (running : s.held = false) (sending : s.sending = some f)
    (restart : f.restart = true) : exec .transmitEnd s = .next s.restartEffect := by
  have effect : s.transmitEnd = s.restartEffect := by
    simp [State.transmitEnd, sending, restart]
  rw [exec_transmitEnd running, effect, State.transmit_of_empty rfl rfl]

theorem State.restartEffect_column (s : State) (c : Col) :
    s.restartEffect.column c = (s.abandon.column c).restarted s.abandon.now := Bank.get_map _ _ _

theorem State.restartEffect_outside (s : State) : s.restartEffect = { s with
    inbox := [], replies := [], notices := [], gap := 0, sending := none, restartPending := false
    ops := [initialWalk s.now], reserve := 0, streak := 0, mode := .starting, walkEnded := false
    clockMark := s.court.isSome, ledLow := false, columns := s.restartEffect.columns, shift := none
    exchange := s.abandon.exchange, released := s.abandon.released, columnRx := s.abandon.columnRx } := by
  unfold State.restartEffect
  simp only
  rw [s.abandon_abandons.outside]

theorem State.restartEffect_column_fields (s : State) (c : Col) : s.restartEffect.column c =
    { s.column c with
      state := .unseen, silence := 0, walkPending := true, attention := false, walkOwed := false
      wrong := 0, lockout := none, quiet := (s.restartEffect.column c).quiet
      heatNext := if (s.column c).state = .absent then some (s.now + 10000000) else (s.column c).heatNext } := by
  have now : s.abandon.now = s.now := by rw [s.abandon_abandons.outside]
  rw [State.restartEffect_column, now, s.abandon_abandons.column c]
  rfl

/-! ## An abandoned exchange (08 R160) -/

/-- The column, quiet from time `t` on, once its exchange has left the line. -/
def State.leftLine (s : State) (t : Time) (c : Col) : State :=
  { s with now := t, exchange := none, released := some t, columnRx := .hunting, reserve := 0
           columns := s.columns.set c { s.column c with quiet := some (t + 10000) } }

theorem State.quietLine_eq (s : State) (c : Col) : s.clearLine.setQuiet c = s.leftLine s.now c := rfl

theorem State.endTry_abandoned {s : State} {x : Exchange} (c : Col) (abandoned : x.abandoned = true) :
    s.endTry x c = s.leftLine s.now c := if_pos abandoned

theorem State.endExchange_abandoned {s : State} {x : Exchange} (c : Col) (r : Result) (abandoned : x.abandoned = true) :
    s.endExchange x c r = s.leftLine s.now c := if_pos abandoned

/-- The reply window closes with no frame begun. -/
theorem State.tryTimeout_hunting {s : State} {x : Exchange} {c : Col} (hx : s.exchange = some x)
    (dest : x.dest = .column c) (stage : x.stage = .awaiting) (hunting : s.columnRx = .hunting) :
    s.tryTimeout = State.endTry { s with now := max s.now (x.requestEnd + 8000) } x c := by
  conv_lhs => simp only [State.tryTimeout, hx, dest, stage]
  refine if_neg ?_
  simp [State.reach, hunting, Receiver.busy]

/-- The reply that an exchange awaits is accepted. -/
theorem Exchange.accepts_reply {x : Exchange} {c : Col} {body : List Byte} {fl : Flags} (short : body.length ≤ 48)
    (flags : bodyFlags body = some fl) (enough : minReply x.kind fl ≤ body.length) :
    x.accepts c (x.replyFrame c body).chars = some (fl, x.replyFrame c body) := by
  simp only [Exchange.accepts, frameOf_chars (f := x.replyFrame c body) short, crcGood_chars (f := x.replyFrame c body) short]
  simp [Exchange.replyFrame, flags, enough]

/-- The reply that an exchange awaits ends it. -/
theorem State.columnChars_reply {s : State} {x : Exchange} {c : Col} {chars : List LineChar} {body : List Byte}
    {fl : Flags} (hs : s.Awaits x c) (ho : x.opensWith chars) (short : body.length ≤ 48)
    (flags : bodyFlags body = some fl) (enough : minReply x.kind fl ≤ body.length)
    (carries : Carries chars (x.replyFrame c body).chars) (gaps : gapsWithin .column chars = true) :
    s.columnChars chars =
      State.endExchange { s with now := heardBy .column s.now chars } x c (.good fl (replyKind x.kind) body) := by
  have ⟨_, hx, dest, stage, _⟩ := hs
  rw [State.columnChars_whole hs ho carries (Receiver.hear_frame (f := x.replyFrame c body) short carries gaps)]
  exact State.columnFound_reply (s := { s with now := heardBy .column s.now chars }) (f := x.replyFrame c body) hx dest
    (by rw [stage]; rfl) (Exchange.accepts_reply short flags enough)

/-- A complete frame that is not the reply awaited. -/
theorem State.columnChars_other {s : State} {x : Exchange} {c : Col} {chars : List LineChar} {whole : List Byte}
    (hs : s.Awaits x c) (ho : x.opensWith chars) (carries : Carries chars whole)
    (heard : Receiver.hunting.hear .column chars = (.hunting, [.complete whole])) (other : x.accepts c whole = none) :
    s.columnChars chars = State.corruptFrame { s with now := heardBy .column s.now chars } x c := by
  have ⟨_, hx, dest, stage, _⟩ := hs
  rw [State.columnChars_whole hs ho carries heard]
  exact State.columnFound_other (s := { s with now := heardBy .column s.now chars }) hx dest (by rw [stage]; rfl) other

/-- A broadcast or POLL that ends leaves the line. -/
def State.leftLineAt (s : State) (t : Time) : State :=
  { s with now := t, exchange := none, released := some t, columnRx := .hunting, reserve := 0 }

theorem State.broadcastSent_abandoned {s : State} {x : Exchange} (hx : s.exchange = some x)
    (stage : x.stage = .broadcast) (abandoned : x.abandoned = true) :
    s.broadcastSent = s.leftLineAt (max s.now x.requestEnd) := by
  simp only [State.broadcastSent, hx, if_pos stage, if_pos abandoned]
  split <;> rfl

theorem State.pollEnded_abandoned {s : State} {x : Exchange} (hx : s.exchange = some x) (stage : x.stage = .slots)
    (abandoned : x.abandoned = true) (chars : List LineChar) :
    s.pollEnded chars = s.leftLineAt (max s.now (x.requestEnd + 8500)) := by
  simp only [State.pollEnded, hx, if_pos stage, if_pos abandoned]
  rfl

/-- Settles O25. -/
theorem restartTakesEffect : Obligations.RestartTakesEffect := by
  refine ⟨fun s f running sending restart => ?effect, fun s x running hx abandoned => ?course⟩
  case effect =>
    have column := s.restartEffect_column
    refine ⟨_, exec_restartTakesEffect running sending restart, exec_transmitEnd_restart running sending restart,
      s.restartEffect_outside, s.restartEffect_column_fields, fun idle => ?_, fun y hy other => ?_,
      fun y w c hy stage dest => ?_⟩
    · rw [State.abandon_idle idle] at column
      refine ⟨?_, ?_, ?_, fun c => by rw [column]; rfl⟩
      all_goals rw [s.restartEffect_outside, State.abandon_idle idle]
      exact idle
    · have abandons := State.abandon_running hy fun w c stage => absurd stage (other w)
      rw [abandons] at column
      refine ⟨?_, ?_, ?_, fun c => by rw [column]; rfl⟩
      all_goals rw [s.restartEffect_outside, abandons]
    · have ends := State.abandon_waiting hy stage dest
      rw [ends] at column
      refine ⟨?_, ?_, ?_, ?_, fun k other => ?_⟩
      · rw [s.restartEffect_outside, ends]; rfl
      · rw [s.restartEffect_outside, ends]; rfl
      · rw [s.restartEffect_outside, ends]; rfl
      · rw [column, State.column_setColumn, if_pos rfl]; rfl
      · rw [column, State.column_setColumn, if_neg (Ne.symm other)]; rfl
  case course =>
    intro ended quiet
    refine ⟨fun c dest stage hunting => ?timeout,
      fun c body fl chars dest stage hunting short flags enough carries gaps opens => ?reply,
      fun c chars whole awaits opens carries heard other => ⟨fun soon => ?corrupt, fun late => ?closed⟩,
      fun stage => ?broadcast, fun chars stage => ?poll⟩
    case timeout =>
      rw [exec_tryTimeout running, State.tryTimeout_hunting hx dest stage hunting, State.endTry_abandoned c abandoned]
      rfl
    case reply =>
      rw [exec_columnReply running,
        State.columnChars_reply ⟨running, hx, dest, stage, hunting⟩ opens short flags enough carries gaps,
        State.endExchange_abandoned c _ abandoned]
      rfl
    case corrupt =>
      rw [exec_columnFrameCorrupt running, State.columnChars_other awaits opens carries heard other,
        State.corruptFrame_open awaits.2.2.2.1 soon]
      rfl
    case closed =>
      rw [exec_columnFrameCorrupt running, State.columnChars_other awaits opens carries heard other,
        State.corruptFrame_over late, State.endTry_abandoned c abandoned]
      rfl
    case broadcast => rw [exec_broadcastSent running, State.broadcastSent_abandoned hx stage abandoned]; rfl
    case poll => rw [exec_pollEnd running, State.pollEnded_abandoned hx stage abandoned]; rfl

/-! ## Pass-through (11 R201, R202) -/

theorem passDest_column (c : Col) : passDest (BitVec.ofNat 4 (c.val + 1)) = some (.column c) := by
  revert c
  decide

/-- The destination of a frame is the station its operation addresses. -/
theorem passDest_station {d : Station} {dest : Dest} (h : passDest d = some dest) : dest.station = d := by
  revert d
  cases dest with
  | all => decide
  | column c => revert c; decide

theorem State.filterOf_refuse {s : State} {kind : Byte}
    (refused : filterIndex kind = none ∨ ∃ k, filterIndex kind = some k ∧ (s.filter.get k).action = .refuse) :
    (s.filterOf kind).action = .refuse := by
  rcases refused with none | ⟨k, found, refuse⟩
  · simp [State.filterOf, none]
  · simp [State.filterOf, found, refuse]

theorem State.filterOf_index {s : State} {kind : Byte} {k : Fin 49} (found : filterIndex kind = some k) :
    s.filterOf kind = s.filter.get k := by
  simp [State.filterOf, found]

theorem State.passUnreachable_iff (s : State) (dest : Dest) (action : FilterAction) :
    s.passUnreachable dest action = true ↔ ∃ c, dest = .column c ∧ ((s.column c).state = .absent
      ∨ (s.column c).state = .lost ∨ ((s.column c).state = .service ∧ action ≠ .passInService)) := by
  cases dest with
  | all => simp [State.passUnreachable]
  | column c =>
    simp only [State.passUnreachable, Dest.column.injEq, exists_eq_left']
    cases (s.column c).state <;> simp

theorem State.hasRoom_iff (s : State) : s.hasRoom = true ↔ s.freeEntries ≠ 0 := by
  rw [State.hasRoom, decide_eq_true_eq, Nat.pos_iff_ne_zero]

section

variable {s : State} {dest : Dest} {kind : Byte} {body : List Byte}

theorem State.passJudge_refused (refuse : (s.filterOf kind).action = .refuse) :
    s.passJudge dest kind body = s.passAnswer ⟨kind, dest.station⟩ .refused [] := if_pos refuse

variable (admitted : (s.filterOf kind).action ≠ .refuse)
include admitted

theorem State.passJudge_away (away : s.passUnreachable dest (s.filterOf kind).action = true) :
    s.passJudge dest kind body = s.passAnswer ⟨kind, dest.station⟩ .unreachable [] :=
  (if_neg admitted).trans (if_pos away)

variable (reached : ¬s.passUnreachable dest (s.filterOf kind).action = true)
include reached

theorem State.passJudge_busy (busy : 2 ≤ s.passOutstanding ∨ s.freeEntries = 0) :
    s.passJudge dest kind body = s.passAnswer ⟨kind, dest.station⟩ .busy [] := by
  refine (if_neg admitted).trans ((if_neg reached).trans ?_)
  split
  · rfl
  · next few =>
    have full := busy.resolve_left few
    exact if_pos (by simp [State.hasRoom, full])

variable (few : ¬(2 ≤ s.passOutstanding ∨ s.freeEntries = 0))
include few

theorem State.passJudge_short (short : (s.filterOf kind).multi = true ∧ countedItems body = none) :
    s.passJudge dest kind body = s.passAnswer ⟨kind, dest.station⟩ .badField [] := by
  rw [not_or, ← ne_eq (s.freeEntries), ← State.hasRoom_iff] at few
  refine (if_neg admitted).trans ((if_neg reached).trans ((if_neg few.1).trans ((if_neg ?_).trans (if_pos ?_))))
  · simp [few.2]
  · simp [short]

theorem State.passJudge_admitted (long : ¬((s.filterOf kind).multi = true ∧ countedItems body = none)) :
    s.passJudge dest kind body = s.enqueue
      (passOp dest kind (if dest ≠ .all ∧ (s.filterOf kind).multi = true then .counted 0 else .once) body) := by
  rw [not_or, ← ne_eq (s.freeEntries), ← State.hasRoom_iff] at few
  refine (if_neg admitted).trans ((if_neg reached).trans ((if_neg few.1).trans ((if_neg ?_).trans
    ((if_neg ?_).trans ?_))))
  · simp [few.2]
  · simpa using long
  · cases dest with
    | all => simp
    | column c => simp

end

theorem State.takePass_head {s : State} {d : Station} {kind : Byte} {body : List Byte} {rest : List InboxFrame}
    {dest : Dest} (room : s.passOutstanding < 8 - s.replies.length) (stands : s.restartPending = false)
    (head : s.inbox = ⟨d, kind, body⟩ :: rest) (named : passDest d = some dest) :
    s.takePass = State.passJudge { s with inbox := rest } dest kind body := by
  simp only [State.takePass, head, named]
  exact if_pos (s.canTake_iff.mpr ⟨room, stands⟩)

/-- Settles O26. -/
theorem passThroughIsAdmittedByTheTable : Obligations.PassThroughIsAdmittedByTheTable := by
  refine ⟨passDest_column, rfl, rfl, fun _ _ => rfl, ?_⟩
  intro s d kind body rest dest running room stands head named reply
  rw [exec_passThrough running, State.takePass_head room stands head named]
  have station := passDest_station named
  refine ⟨fun refused => ?refused, fun k found admitted => ?table⟩
  case refused =>
    rw [State.passJudge_refused (State.filterOf_refuse (s := { s with inbox := rest }) refused), station]
    rfl
  case table =>
    have entry : State.filterOf { s with inbox := rest } kind = s.filter.get k := State.filterOf_index found
    have unreachable := State.passUnreachable_iff { s with inbox := rest } dest (s.filter.get k).action
    rw [← entry] at admitted unreachable
    intro e away busy short mode
    refine ⟨fun gone => ?away, fun here full => ?busy, fun here free bad => ?short, fun here free good => ?admitted⟩
    case away =>
      rw [State.passJudge_away admitted (unreachable.mpr (by rw [entry]; exact gone)), station]
      rfl
    all_goals have reached := mt unreachable.mp (by rw [entry]; exact here)
    case busy =>
      rw [State.passJudge_busy admitted reached full, station]
      rfl
    case short =>
      rw [State.passJudge_short admitted reached free (by rw [entry]; exact bad), station]
      rfl
    case admitted =>
      rw [State.passJudge_admitted admitted reached free (by rw [entry]; exact good), entry]
      rw [State.enqueue_room (s := { s with inbox := rest }) (Nat.pos_of_ne_zero fun h => free (.inr h)), passOp,
        Op.blank, station]
      rfl

end Sys2Proof.Machine
end

section
/-! The reservation requests and the TRAIN-SHIFT walk (01 R17 to R25). -/

-- The declarations are elaborated one after another, which bounds the memory that their checks take at one time.
set_option Elab.async false

namespace Sys2Proof.Machine

open Config

/-! ## RES-PUT (01 R17, R18) -/

theorem fieldAt_between (before field after : List Byte) :
    fieldAt (before ++ field ++ after) before.length field.length = field := by
  simp [fieldAt]

/-- The fields of a RES-PUT body of 20 bytes. -/
def putRequest (body : List Byte) : ResPutReq :=
  ⟨natAt body 0 4, codeOf (fieldAt body 4 3), natAt body 7 1, natAt body 8 4, natAt body 12 4,
    optional (natAt body 16 2), optional (natAt body 18 2)⟩

theorem resPutReq_of_length {body : List Byte} (length : body.length = 20) :
    resPutReq body = some (putRequest body) := if_pos length

theorem classNumber_none {n : Nat} : classNumber n = none ↔ 4 ≤ n := by
  simp [classNumber]

theorem classNumber_some {n : Nat} {c : ClassId} : classNumber n = some c ↔ n = c.val := by
  unfold classNumber
  split
  · simp [Fin.ext_iff]
  · next high =>
    have := c.isLt
    simp only [reduceCtorEq, false_iff]
    omega

/-- The class of a RES-PUT does not exist, is not enabled or does not allow the hold override. -/
def State.putClassBad (s : State) (n hold : Nat) : Bool :=
  match classNumber n with
  | none => true
  | some k =>
    match s.classes.get k with
    | none => true
    | some rec =>
      match optional hold with
      | none => false
      | some h => decide (h < 600 ∨ rec.holdLimit < h)

theorem State.putClassBad_iff (s : State) (n hold : Nat) : s.putClassBad n hold = true ↔
    4 ≤ n ∨ ∃ c : ClassId, n = c.val ∧ (s.classes.get c = none
      ∨ ∃ k, s.classes.get c = some k ∧ hold ≠ 0 ∧ (hold < 600 ∨ k.holdLimit < hold)) := by
  cases hc : classNumber n with
  | none => simp [State.putClassBad, hc, classNumber_none.mp hc]
  | some c =>
    obtain rfl := classNumber_some.mp hc
    have unique (p : ClassId → Prop) : (∃ d : ClassId, c.val = d.val ∧ p d) ↔ p c := by
      simp [← Fin.ext_iff]
    have low : ¬4 ≤ c.val := by omega
    simp only [State.putClassBad, hc, unique, low, false_or]
    cases s.classes.get c with
    | none => simp
    | some k => by_cases zero : hold = 0 <;> simp [optional, zero]

/-- A RES-PUT with a field out of range (01 R17 test 2). -/
theorem State.resPutBad_iff (s : State) (body : List Byte) (t : Nat) :
    s.resPutBad (putRequest body) t = true ↔
      natAt body 0 4 = 0 ∨ codeOf (fieldAt body 4 3) = none ∨ codeOf (fieldAt body 4 3) = some 0
        ∨ 4 ≤ natAt body 7 1 ∨ natAt body 12 4 ≤ natAt body 8 4 ∨ natAt body 12 4 ≤ t
        ∨ ∃ c : ClassId, natAt body 7 1 = c.val ∧ (s.classes.get c = none
          ∨ ∃ k, s.classes.get c = some k
            ∧ natAt body 18 2 ≠ 0 ∧ (natAt body 18 2 < 600 ∨ k.holdLimit < natAt body 18 2)) := by
  have tests : s.resPutBad (putRequest body) t =
      (natAt body 0 4 == 0 || codeOf (fieldAt body 4 3) == none || codeOf (fieldAt body 4 3) == some 0
        || s.putClassBad (natAt body 7 1) (natAt body 18 2) || decide (natAt body 12 4 ≤ natAt body 8 4)
        || decide (natAt body 12 4 ≤ t)) := rfl
  simp only [tests, Bool.or_eq_true, decide_eq_true_eq, beq_iff_eq, State.putClassBad_iff, or_assoc]
  refine or_congr_right (or_congr_right (or_congr_right (or_congr_right ?_)))
  rw [or_comm, or_assoc]

theorem State.lookup_isSome (s : State) (p : Reservation → Bool) :
    (s.lookup p).isSome = true ↔ ∃ i r, s.entry i = some r ∧ p r = true := by
  constructor
  · intro found
    obtain ⟨i, hi⟩ := Option.isSome_iff_exists.mp found
    have held := Bank.find_test hi
    cases hr : s.entries.get i with
    | none => simp [hr] at held
    | some r => exact ⟨i, r, hr, by simpa [hr] using held⟩
  · rintro ⟨i, r, hr, hp⟩
    rw [Option.isSome_iff_ne_none]
    intro none
    rw [State.lookup_none none hr] at hp
    cases hp

theorem State.taken_iff (s : State) (tag code : Nat) :
    ((s.findTag tag).isSome || (s.findCode code).isSome) = true
      ↔ ∃ i r, s.entry i = some r ∧ (r.tag = tag ∨ r.code = code) := by
  rw [Bool.or_eq_true, State.findTag, State.findCode, State.lookup_isSome, State.lookup_isSome]
  simp only [beq_iff_eq, and_or_left, exists_or]

section

variable {s : State} {body : List Byte} (length : body.length = 20)
include length

theorem State.resPut_notNow (away : s.mode = .drain ∨ s.court = none) :
    s.resPut body = s.answer 0x40#8 .notNow [] := by
  simp only [State.resPut, resPutReq_of_length length]
  rcases away with drain | unset
  · rw [drain]
  · rw [unset]
    cases s.mode <;> rfl

variable (running : s.mode ≠ .drain) {t : Nat} (court : s.court = some t)
include running court

/-- A RES-PUT that may be decided now, by its fields and the entries there are. -/
theorem State.resPut_now : s.resPut body =
    if s.resPutBad (putRequest body) t then s.answer 0x40#8 .badField []
    else
      match codeOf (fieldAt body 4 3), classNumber (natAt body 7 1) with
      | some code, some cls =>
        if (s.findTag (natAt body 0 4)).isSome || (s.findCode code).isSome then s.answer 0x40#8 .duplicate []
        else
          match s.entries.find fun e => e.isNone with
          | none => s.answer 0x40#8 .full []
          | some i =>
            (s.setEntry i (some ⟨natAt body 0 4, code, cls, natAt body 8 4, natAt body 12 4,
              optional (natAt body 16 2), optional (natAt body 18 2), .booked⟩)).answer 0x40#8 .ok (u8 i.val)
      | _, _ => s.answer 0x40#8 .badField [] := by
  simp only [State.resPut, resPutReq_of_length length]
  cases mode : s.mode with
  | drain => exact absurd mode running
  | starting => simp only [court]; rfl
  | run => simp only [court]; rfl

variable {code : Nat} {cls : ClassId} (good : ¬s.resPutBad (putRequest body) t = true)
  (hcode : codeOf (fieldAt body 4 3) = some code) (hcls : natAt body 7 1 = cls.val)
include good hcode hcls

theorem State.resPut_duplicate (taken : ∃ i r, s.entry i = some r ∧ (r.tag = natAt body 0 4 ∨ r.code = code)) :
    s.resPut body = s.answer 0x40#8 .duplicate [] := by
  rw [State.resPut_now length running court, if_neg good, hcode, classNumber_some.mpr hcls]
  exact if_pos ((s.taken_iff _ _).mpr taken)

variable (fresh : ¬∃ i r, s.entry i = some r ∧ (r.tag = natAt body 0 4 ∨ r.code = code))
include fresh

theorem State.resPut_full (full : ∀ i, s.entry i ≠ none) : s.resPut body = s.answer 0x40#8 .full [] := by
  rw [State.resPut_now length running court, if_neg good, hcode, classNumber_some.mpr hcls]
  refine (if_neg fun taken => fresh ((s.taken_iff _ _).mp taken)).trans ?_
  rw [State.find_full full]

theorem State.resPut_writes {i : Slot} (free : s.entry i = none) (lowest : ∀ j, j < i → s.entry j ≠ none) :
    s.resPut body =
      (s.setEntry i (some ⟨natAt body 0 4, code, cls, natAt body 8 4, natAt body 12 4, optional (natAt body 16 2),
        optional (natAt body 18 2), .booked⟩)).answer 0x40#8 .ok (u8 i.val) := by
  rw [State.resPut_now length running court, if_neg good, hcode, classNumber_some.mpr hcls]
  refine (if_neg fun taken => fresh ((s.taken_iff _ _).mp taken)).trans ?_
  rw [State.find_free free lowest]

end

/-- A RES-PUT without a bad field names a code and a class. -/
theorem State.resPut_named {s : State} {body : List Byte} {t : Nat} (good : ¬s.resPutBad (putRequest body) t = true) :
    ∃ (code : Nat) (cls : ClassId), codeOf (fieldAt body 4 3) = some code ∧ natAt body 7 1 = cls.val := by
  rw [State.resPutBad_iff] at good
  simp only [not_or] at good
  obtain ⟨_, named, _, low, _⟩ := good
  obtain ⟨code, hcode⟩ := Option.ne_none_iff_exists'.mp named
  exact ⟨code, ⟨natAt body 7 1, not_le.mp low⟩, hcode, rfl⟩

/-- Settles O27. -/
theorem resPutRefusesOrWritesTheLowestFreeSlot : Obligations.ResPutRefusesOrWritesTheLowestFreeSlot := by
  refine ⟨fieldAt_between, fun _ _ _ => rfl, ?refused, ?written⟩
  case refused =>
    intro s body rest head refuse tag code hold bad taken
    let u : State := { s with inbox := rest }
    have run : exec .resPut s = .next (State.transmit (u.resPut body)) := exec_resPut head
    refine ⟨fun length => ?_, fun length away => ?_, fun t length running court => ?_⟩
    · show exec .resPut s = _
      rw [run, State.resPut, resPutReq, if_neg length]
      rfl
    · show exec .resPut s = _
      rw [run, State.resPut_notNow (s := u) length away]
      rfl
    · have test : u.resPutBad (putRequest body) t = true ↔ bad t := u.resPutBad_iff body t
      refine ⟨fun isBad => ?_, fun good isTaken => ?_, fun good fresh full => ?_⟩
      · show exec .resPut s = _
        rw [run, State.resPut_now (s := u) length running court, if_pos (test.mpr isBad)]
        rfl
      all_goals
        rw [← test] at good
        obtain ⟨n, cls, hcode, hcls⟩ := State.resPut_named good
        have same : taken ↔ ∃ i r, u.entry i = some r ∧ (r.tag = natAt body 0 4 ∨ r.code = n) := by
          simp only [taken, tag, code, hcode, Option.some.injEq]
          rfl
        show exec .resPut s = _
        rw [run]
      · rw [State.resPut_duplicate (s := u) length running court good hcode hcls (same.mp isTaken)]
        rfl
      · rw [State.resPut_full (s := u) length running court good hcode hcls (mt same.mpr fresh) full]
        rfl
  case written =>
    intro s body rest t code cls k i head length running court tag hcode nonzero hcls enabled window future hold fresh
      free lowest
    let u : State := { s with inbox := rest }
    have good : ¬u.resPutBad (putRequest body) t = true := by
      rw [State.resPutBad_iff]
      have low := cls.isLt
      have classes : ∀ c : ClassId, natAt body 7 1 = c.val → u.classes.get c = some k := fun c hc => by
        rw [show c = cls from Fin.ext (hc.symm.trans hcls)]
        exact enabled
      rintro (zero | none | zero | high | short | past | ⟨c, hc, bad⟩)
      · exact tag zero
      · rw [hcode] at none
        cases none
      · rw [hcode] at zero
        exact nonzero (Option.some.inj zero)
      · omega
      · omega
      · omega
      · rw [classes c hc] at bad
        rcases bad with none | ⟨k', same, bad⟩
        · cases none
        · cases same
          omega
    have unheld : ¬∃ j r, u.entry j = some r ∧ (r.tag = natAt body 0 4 ∨ r.code = code) := by
      rintro ⟨j, r, hr, same⟩
      obtain ⟨otherTag, otherCode⟩ := fresh j r hr
      exact same.elim otherTag otherCode
    rw [exec_resPut head, State.resPut_writes (s := u) length running court good hcode hcls unheld free lowest]
    rfl

/-! ## RES-DROP (01 R19) -/

theorem numberReq_of_length {n : Nat} {body : List Byte} (length : body.length = n) :
    numberReq n body = some (natAt body 0 n) := if_pos length

theorem State.resDrop_bad {s : State} {body : List Byte} (bad : body.length ≠ 4 ∨ natAt body 0 4 = 0) :
    s.resDrop body = s.answer 0x41#8 .badField [] := by
  by_cases length : body.length = 4
  · simp [State.resDrop, numberReq_of_length length, bad.resolve_left (not_not.mpr length)]
  · simp [State.resDrop, numberReq_length length]

section

variable {s : State} {body : List Byte} (length : body.length = 4) (named : natAt body 0 4 ≠ 0)
include length named

theorem State.resDrop_unknown (unheld : s.findTag (natAt body 0 4) = none) :
    s.resDrop body = s.answer 0x41#8 .notFound [] := by
  simp [State.resDrop, numberReq_of_length length, named, unheld]

/-- RES-DROP by the stage of the entry that holds the tag. -/
theorem State.resDrop_held {i : Slot} {r : Reservation} (found : s.findTag (natAt body 0 4) = some i)
    (hr : s.entry i = some r) : s.resDrop body =
      match r.stage with
      | .booked => (s.setEntry i none).answer 0x41#8 .ok []
      | .ready l _ => ((s.enterLocker l (.spoiled (some ⟨r.tag, .dropped⟩))).setEntry i none).answer 0x41#8 .ok []
      | .loading _ => s.answer 0x41#8 .inUse []
      | .releasing _ _ _ => s.answer 0x41#8 .inUse []
      | .opened _ _ _ => s.answer 0x41#8 .inUse [] := by
  simp only [State.resDrop, numberReq_of_length length, if_neg named, found, hr] <;> rfl

end

/-- Settles O28. -/
theorem resDropByEntryState : Obligations.ResDropByEntryState := by
  intro s body rest head unique tag gives
  let u : State := { s with inbox := rest }
  have run : exec .resDrop s = .next (State.transmit (u.resDrop body)) := exec_resDrop head
  refine ⟨fun bad => ?_, fun length named unheld => ?_, fun i r length named hr held => ?_⟩
  · exact run.trans (by rw [State.resDrop_bad bad]; rfl)
  · exact run.trans (by rw [State.resDrop_unknown length named (State.findTag_free (s := u) unheld)]; rfl)
  · have found : u.findTag r.tag = some i := State.findTag_held (s := u) unique hr
    rw [held] at found
    have decided := run.trans (by rw [State.resDrop_held (s := u) length named found hr])
    refine ⟨fun booked => ?_, fun l at_ ready => ?_, fun notBooked notReady => ?_⟩
    · exact decided.trans (by rw [booked]; rfl)
    · exact decided.trans (by rw [ready, held]; rfl)
    · refine decided.trans ?_
      cases stage : r.stage with
      | booked => exact absurd stage notBooked
      | ready l t => exact absurd stage (notReady l t)
      | _ => rfl

/-! ## RES-SHIFT (01 R20, R21) -/

theorem Stage.atDoor_iff (g : Stage) :
    g.atDoor = true ↔ ∃ l t p, g = .releasing l t p ∨ g = .opened l t p := by
  cases g <;> simp [Stage.atDoor]

/-- The close that RT writes: in READY the hold deadline of the held meal limits it, elsewhere nothing does. -/
theorem State.closeFor_eq {s : State} {r : Reservation} {new close : Nat}
    (limited : ∀ l t j m, r.stage = .ready l t → (s.locker l).state.meal = some (j, m) → close = min new m.deadline)
    (free : (∀ l t j m, r.stage = .ready l t → (s.locker l).state.meal ≠ some (j, m)) → close = new) :
    s.closeFor r new = close := by
  unfold State.closeFor
  split
  case h_1 l t ready =>
    unfold State.limitClose
    split
    · next j m meal => exact (limited l t j m ready meal).symm
    · next none =>
      refine (free fun k u j m stage meal => ?_).symm
      rw [ready] at stage
      cases stage
      rw [none] at meal
      cases meal
  all_goals
    next stage =>
      refine (free fun k u j m other => ?_).symm
      rw [stage] at other
      cases other

theorem resShiftReq_of_length {body : List Byte} (length : body.length = 12) :
    resShiftReq body = some ⟨natAt body 0 4, natAt body 4 4, optional (natAt body 8 4)⟩ := if_pos length

theorem optional_getD (n v : Nat) : (optional n).getD v = if n = 0 then v else n := by
  unfold optional
  split <;> rfl

theorem State.resShift_bad {s : State} {body : List Byte} (bad : body.length ≠ 12 ∨ natAt body 0 4 = 0) :
    s.resShift body = s.answer 0x42#8 .badField [] := by
  by_cases length : body.length = 12
  · simp [State.resShift, resShiftReq_of_length length, bad.resolve_left (not_not.mpr length)]
  · simp [State.resShift, resShiftReq, length]

section

variable {s : State} {body : List Byte} (length : body.length = 12) (named : natAt body 0 4 ≠ 0)
include length named

theorem State.resShift_unknown (unheld : s.findTag (natAt body 0 4) = none) :
    s.resShift body = s.answer 0x42#8 .notFound [] := by
  simp [State.resShift, resShiftReq_of_length length, named, unheld]

/-- RES-SHIFT of the entry that holds the tag. -/
theorem State.resShift_held {i : Slot} {r : Reservation} (found : s.findTag (natAt body 0 4) = some i)
    (hr : s.entry i = some r) :
    let opens := if natAt body 8 4 = 0 then r.opens else natAt body 8 4
    let close := s.closeFor r (natAt body 4 4)
    s.resShift body =
      if r.stage.atDoor then s.answer 0x42#8 .inUse []
      else if natAt body 4 4 ≤ opens then s.answer 0x42#8 .badField []
      else ((s.setEntry i (some { r with opens := opens, closes := close })).windowDue i).answer 0x42#8
        (if close < natAt body 4 4 then .clipped else .ok) (u8 i.val ++ beBytes 4 close) := by
  simp only [State.resShift, resShiftReq_of_length length, if_neg named, found, hr, optional_getD]

end

/-- Settles O29. -/
theorem resShiftMovesOneWindow : Obligations.ResShiftMovesOneWindow := by
  intro s body rest head unique tag newClose refuse
  let u : State := { s with inbox := rest }
  have run : exec .resShift s = .next (State.transmit (u.resShift body)) := exec_resShift head
  refine ⟨fun bad => ?_, fun length named unheld => ?_, fun i r length named hr held => ?_⟩
  · exact run.trans (by rw [State.resShift_bad bad]; rfl)
  · exact run.trans (by rw [State.resShift_unknown length named (State.findTag_free (s := u) unheld)]; rfl)
  · have found : u.findTag r.tag = some i := State.findTag_held (s := u) unique hr
    rw [held] at found
    have decided := run.trans (by rw [State.resShift_held (s := u) length named found hr])
    intro opens atDoor
    have door := r.stage.atDoor_iff
    refine ⟨fun standing => ?_, fun away closed => ?_, fun close away open_ limited free => ?_⟩
    · exact decided.trans (by rw [if_pos (door.mpr standing)]; rfl)
    · exact decided.trans (by rw [if_neg (mt door.mp away), if_pos closed]; rfl)
    · have written : u.closeFor r newClose = close := State.closeFor_eq limited free
      refine decided.trans ?_
      rw [if_neg (mt door.mp away), if_neg (not_le.mpr open_), written]
      by_cases clips : close < natAt body 4 4
      · simp only [newClose, if_pos clips]
        rfl
      · simp only [newClose, if_neg clips]
        rfl

/-! ## TRAIN-SHIFT (01 R22 to R24) -/

theorem State.trainShift_eq (s : State) (body : List Byte) : s.trainShift body =
    if body.length ≠ 4 ∨ natAt body 0 2 = 0 ∨ intOf16 (fieldAt body 2 2) < -3600
        ∨ 7200 < intOf16 (fieldAt body 2 2) then s.answer 0x43#8 .badField []
    else if s.shift ≠ none then s.answer 0x43#8 .busy []
    else State.answer
      { s with shift := some ⟨natAt body 0 2, intOf16 (fieldAt body 2 2), 0, 0, 0, s.now + 1000⟩ } 0x43#8 .accepted
      [] := by
  by_cases length : body.length = 4
  · rw [State.trainShift, trainShiftReq, if_pos length]
    by_cases bad : natAt body 0 2 = 0 ∨ intOf16 (fieldAt body 2 2) < -3600 ∨ 7200 < intOf16 (fieldAt body 2 2)
    · exact (if_pos bad).trans (if_pos (.inr bad)).symm
    · refine (if_neg bad).trans (Eq.trans ?_ (if_neg fun h => bad (h.resolve_left (not_not.mpr length))).symm)
      split
      · next busy => exact (if_pos (by simp [busy])).symm
      · next idle => exact (if_neg (by simp [idle])).symm
  · simp [State.trainShift, trainShiftReq, length]

section

variable {s : State} {w : ShiftWalk}

theorem State.visitSlot_other (other : ∀ r, s.entry w.cursor = some r → r.train ≠ some w.train) :
    s.visitSlot w = (s, w) := by
  unfold State.visitSlot
  split
  · rfl
  · next r hr => exact if_neg (other r hr)

variable {r : Reservation} (hr : s.entry w.cursor = some r) (train : r.train = some w.train)
include hr train

theorem State.visitSlot_atDoor (door : r.stage.atDoor = true) :
    s.visitSlot w = (s, { w with skipped := w.skipped + 1 }) := by
  simp [State.visitSlot, hr, train, door]

theorem State.visitSlot_moves (away : r.stage.atDoor = false) :
    s.visitSlot w =
      ((s.setEntry w.cursor (some { r with opens := shiftTime r.opens w.delta
                                           closes := s.closeFor r (shiftTime r.closes w.delta) })).windowDue w.cursor,
        { w with shifted := w.shifted + 1 }) := by
  simp [State.visitSlot, hr, train, away]

end

/-- The walk goes on to the next slot, or ends after the last. -/
def State.shiftGoesOn (u : State) (w w1 : ShiftWalk) : State :=
  if h : w.cursor.val + 1 < 256 then
    { u with shift := some { w1 with cursor := ⟨w.cursor.val + 1, h⟩, next := w.next + 1000 } }
  else State.queueNotice { u with shift := none } (.shiftDone w1.train w1.shifted w1.skipped)

theorem State.shiftVisit_eq {s : State} {w : ShiftWalk} (walk : s.shift = some w) {u : State} {w1 : ShiftWalk}
    (visit : (s.reach w.next).visitSlot w = (u, w1)) : s.shiftVisit = u.shiftGoesOn w w1 := by
  simp only [State.shiftVisit, walk, visit]
  rfl

/-- Settles O30. -/
theorem trainShiftWalksTheSlots : Obligations.TrainShiftWalksTheSlots := by
  refine ⟨?request, ?visits⟩
  case request =>
    intro s body rest head train delta bad
    rw [exec_trainShift head, State.trainShift_eq]
    refine ⟨fun isBad => ?_, fun good busy => ?_, fun good idle => ?_⟩
    · rw [if_pos isBad]; rfl
    · rw [if_neg good, if_pos (by exact busy)]; rfl
    · rw [if_neg good, if_neg (not_not.mpr (by exact idle))]; rfl
  case visits =>
    intro s w running walk s1 goOn move
    have visited {u : State} {w1 : ShiftWalk} (visit : (s.reach w.next).visitSlot w = (u, w1)) :
        exec .trainShiftVisit s = .next (State.transmit (goOn u w1)) := by
      rw [exec_trainShiftVisit running, State.shiftVisit_eq walk visit]
      rfl
    refine ⟨fun other => visited (State.visitSlot_other (s := s.reach w.next) other), fun r hr train =>
      ⟨fun l t p door => ?_, fun away => ?_, fun l t j m ready meal => ?_⟩⟩
    · exact visited (State.visitSlot_atDoor (s := s.reach w.next) hr train (r.stage.atDoor_iff.mpr ⟨l, t, p, door⟩))
    · refine visited ((State.visitSlot_moves (s := s.reach w.next) hr train ?_).trans ?_)
      · rcases away with booked | ⟨l, loading⟩
        · rw [booked]; rfl
        · rw [loading]; rfl
      · have free : (s.reach w.next).closeFor r (shiftTime r.closes w.delta) = shiftTime r.closes w.delta := by
          rcases away with booked | ⟨l, loading⟩
          · simp [State.closeFor, booked]
          · simp [State.closeFor, loading]
        rw [free]
        rfl
    · refine visited ((State.visitSlot_moves (s := s.reach w.next) hr train (by rw [ready]; rfl)).trans ?_)
      have limited : (s.reach w.next).closeFor r (shiftTime r.closes w.delta)
          = min (shiftTime r.closes w.delta) m.deadline := by
        have held : ((s.reach w.next).locker l).state.meal = some (j, m) := meal
        simp [State.closeFor, ready, State.limitClose, held]
      rw [limited]
      rfl

/-! ## RES-READ (01 R25) -/

/-- Two digits as one byte are read back. -/
theorem digitInto_pair {acc v : Nat} :
    digitInto (digitInto (some acc) ((BitVec.ofNat 8 (v / 10 % 10 * 16 + v % 10)).toNat / 16))
      ((BitVec.ofNat 8 (v / 10 % 10 * 16 + v % 10)).toNat % 16) = some (acc * 100 + v % 100) := by
  have byte : (BitVec.ofNat 8 (v / 10 % 10 * 16 + v % 10)).toNat = v / 10 % 10 * 16 + v % 10 := by
    rw [BitVec.toNat_ofNat]
    omega
  have tens : (v / 10 % 10 * 16 + v % 10) / 16 = v / 10 % 10 := by omega
  have ones : (v / 10 % 10 * 16 + v % 10) % 16 = v % 10 := by omega
  have low : v / 10 % 10 ≤ 9 := by omega
  have low' : v % 10 ≤ 9 := by omega
  simp only [byte, tens, ones, digitInto, if_pos low, if_pos low']
  congr 1
  omega

theorem codeOf_codeBytes {n : Nat} (h : n < 1000000) : codeOf (codeBytes n) = some n := by
  simp only [codeOf, codeBytes, List.foldl_cons, List.foldl_nil, digitInto_pair]
  congr 1
  omega

theorem State.courtBytes_length (s : State) : s.courtBytes.length = 5 := by
  unfold State.courtBytes
  split <;> simp [beBytes_length]

theorem lockerByte_length (l : Option LockerId) : (lockerByte l).length = 1 := by
  cases l <;> simp [lockerByte, u8_eq]

theorem State.entryReport_length (s : State) (i : Slot) : (s.entryReport i).length = 33 := by
  unfold State.entryReport
  split <;> simp [u8_eq, beBytes_length, codeBytes, State.courtBytes_length, lockerByte_length]

/-- The report of an entry: what every state has, then its place. -/
theorem State.entryReport_place {s : State} {i : Slot} {r : Reservation} (hr : s.entry i = some r)
    {state : Nat} {place : List Byte} (code : r.stage.code = state)
    (rest : ∀ common : List Byte, common ++ lockerByte r.stage.locker
        ++ beBytes 4 (match r.stage with
          | .ready _ t => t
          | .releasing _ t _ => t
          | .opened _ t _ => t
          | .booked => 0
          | .loading _ => 0)
        ++ u8 ((r.stage.pending.map Reason.code).getD 0) = common ++ place) :
    s.entryReport i = u8 i.val ++ u8 state ++ s.courtBytes ++ beBytes 4 r.tag ++ codeBytes r.code
      ++ u8 r.cls.val ++ beBytes 4 r.opens ++ beBytes 4 r.closes ++ beBytes 2 (r.train.getD 0)
      ++ beBytes 2 (r.holdOverride.getD 0) ++ place := by
  rw [← code, ← rest]
  simp only [State.entryReport, hr] <;> rfl

theorem resReadReq_byte (b : Byte) : resReadReq [b] = some (.slot (Fin.ofNat 256 b.toNat)) := by
  simp [resReadReq, natAt, fieldAt, beNat]

theorem resReadReq_tag {body : List Byte} (length : body.length = 4) :
    resReadReq body = some (.tag (natAt body 0 4)) := by
  simp [resReadReq, length]

/-- Settles O31. -/
theorem resReadReportsAnEntry : Obligations.ResReadReportsAnEntry := by
  refine ⟨fun n small => ⟨rfl, codeOf_codeBytes small⟩, fun s body rest head unique => ?_⟩
  let u : State := { s with inbox := rest }
  have run : exec .resRead s = .next (State.transmit (u.resRead body)) := exec_resRead head
  intro reply
  refine ⟨fun one four => run.trans ?_, fun b hb => run.trans ?_, fun length zero => run.trans ?_,
    fun length named unheld => run.trans ?_, fun i r length named hr held => run.trans ?_, fun i =>
    ⟨s.entryReport_length i, fun free => ?_, fun r hr => ?held⟩⟩
  · simp [State.resRead, resReadReq, one, four]; rfl
  · rw [hb, State.resRead, resReadReq_byte]; rfl
  · simp [State.resRead, resReadReq_tag length, zero]; rfl
  · simp [State.resRead, resReadReq_tag length, named, State.findTag_free (s := u) unheld]; rfl
  · have found : u.findTag r.tag = some i := State.findTag_held (s := u) unique hr
    rw [held] at found
    simp [State.resRead, resReadReq_tag length, named, found]; rfl
  · rw [State.entryReport, free]
  case held =>
    intro report why
    refine ⟨fun booked => ?_, fun l loading => ?_, fun l t ready => ?_, fun l t p releasing => ?_,
      fun l t p opened => ?_⟩
    · exact State.entryReport_place hr (by rw [booked]; rfl) fun _ => by simp [booked]; rfl
    · exact State.entryReport_place hr (by rw [loading]; rfl) fun _ => by simp [loading]; rfl
    · exact State.entryReport_place hr (by rw [ready]; rfl) fun _ => by simp [ready]; rfl
    · exact State.entryReport_place hr (by rw [releasing]; rfl) fun _ => by simp [releasing]; rfl
    · exact State.entryReport_place hr (by rw [opened]; rfl) fun _ => by simp [opened]; rfl

end Sys2Proof.Machine
end

section
/-! Court time's deadlines, door-held, FAULT-CLEAR, PURGE-ABORT and the faults of a locker (01 R12 to R16,
02 R38 to R51, 05 R116, 06 R123 to R126). -/

-- The declarations are elaborated one after another, which bounds the memory that their checks take at one time.
set_option Elab.async false

namespace Sys2Proof.Machine

open Config

/-! ## The window close and the hold deadline (01 R12, 05 R116) -/

theorem State.overdue_of_court {s : State} {t : Nat} (court : s.court = some t) (r : Reservation) :
    s.overdue r = true ↔ r.closes ≤ t := by
  simp [State.overdue, court]

theorem State.overdue_unset {s : State} (unset : s.court = none) (r : Reservation) : s.overdue r = false := by
  simp [State.overdue, unset]

theorem State.windowDue_loading {s : State} {i : Slot} {r : Reservation} (hr : s.entry i = some r) {l : LockerId}
    (loading : r.stage = .loading l) : s.windowDue i = s := by
  simp [State.windowDue, hr, loading]

/-- An overdue entry whose meal is held is brought WINDOW. -/
theorem State.windowDue_brings {s : State} {i : Slot} {r : Reservation} (hr : s.entry i = some r)
    (overdue : s.overdue r = true) (booked : r.stage ≠ .booked) (loading : ∀ l, r.stage ≠ .loading l) :
    s.windowDue i = s.bringTimed i .window := by
  simp only [State.windowDue, hr, if_pos overdue]
  cases stage : r.stage with
  | booked => exact absurd stage booked
  | loading l => exact absurd stage (loading l)
  | _ => rfl

theorem State.holdDue_idle {s : State} {l : LockerId} (idle : (s.locker l).state.meal = none ∨ s.court = none) :
    s.holdDue l = s := by
  unfold State.holdDue
  rcases idle with none | unset
  · rw [none]
  · rw [unset]
    cases (s.locker l).state.meal <;> rfl

theorem State.holdDue_meal {s : State} {l : LockerId} {i : Slot} {m : Meal} {t : Nat}
    (meal : (s.locker l).state.meal = some (i, m)) (court : s.court = some t) :
    s.holdDue l = if m.deadline ≤ t then s.bringTimed i .hold else s := by
  simp only [State.holdDue, meal, court]

/-- The entry that a HOLDING locker names is READY there (02 R32). -/
theorem State.BindingLaw.ready_of_holding {s : State} (law : s.BindingLaw) {l : LockerId} {i : Slot} {m : Meal}
    (holding : (s.locker l).state = .holding i m) {r : Reservation} (hr : s.entry i = some r) :
    ∃ t, r.stage = .ready l t := by
  obtain ⟨q, hq, fits⟩ := law.1 l i (by rw [holding]; rfl)
  obtain rfl := Option.some.inj (hr.symm.trans hq)
  rw [holding] at fits
  cases stage : r.stage with
  | ready k t =>
    rw [stage] at fits
    exact ⟨t, by rw [show k = l from fits]⟩
  | _ => rw [stage] at fits; exact fits.elim

/-- Settles O34. -/
theorem timedReasonsByEntryState : Obligations.TimedReasonsByEntryState := by
  refine ⟨fun s i running => ?window, fun s l running law => ?hold⟩
  case window =>
    have run : exec (.windowClose i) s = .next (State.transmit (s.windowDue i)) := exec_windowClose running i
    intro gives
    refine ⟨fun idle => run.trans ?_, fun r t hr court => ?_⟩
    · cases hr : s.entry i with
      | none => rw [State.windowDue_free hr]
      | some r =>
        rw [State.windowDue_early hr (State.overdue_unset (idle.resolve_left (by simp [hr])) r)]
    · have due : r.closes ≤ t → s.overdue r = true := (State.overdue_of_court court r).mpr
      refine ⟨fun early => run.trans ?_, fun late booked => run.trans ?_, fun l _ loading => run.trans ?_,
        fun l at_ late ready => run.trans ?_, fun l at_ p late releasing => run.trans ?_,
        fun l at_ p late opened => run.trans ?_⟩
      · rw [State.windowDue_early hr (by simp [State.overdue, court, early])]
      · rw [State.windowDue_booked hr (due late) booked]
      · rw [State.windowDue_loading hr loading]
      · rw [State.windowDue_brings hr (due late) (by simp [ready]) (by simp [ready]),
          State.bringTimed_ready hr ready (by decide)]
        rfl
      · rw [State.windowDue_brings hr (due late) (by simp [releasing]) (by simp [releasing]),
          State.bringTimed_releasing hr releasing]
      · rw [State.windowDue_brings hr (due late) (by simp [opened]) (by simp [opened]),
          State.bringTimed_opened hr opened]
  case hold =>
    have run : exec (.holdDeadline l) s = .next (State.transmit (s.holdDue l)) := exec_holdDeadline running l
    intro gives
    refine ⟨fun idle => run.trans (by rw [State.holdDue_idle idle]), fun i m t r meal court hr => ?_⟩
    have brings (late : m.deadline ≤ t) : s.holdDue l = s.bringTimed i .hold :=
      (State.holdDue_meal meal court).trans (if_pos late)
    refine ⟨fun early => run.trans ?_, fun late holding => run.trans ?_, fun at_ p late releasing => run.trans ?_,
      fun at_ p late opened => run.trans ?_⟩
    · rw [State.holdDue_meal meal court, if_neg (not_le.mpr early)]
    · obtain ⟨at_, ready⟩ := law.ready_of_holding holding hr
      rw [brings late, State.bringTimed_ready hr ready (by decide)]
      rfl
    · rw [brings late, State.bringTimed_releasing hr releasing]
    · rw [brings late, State.bringTimed_opened hr opened]

/-! ## FAULT-CLEAR and PURGE-ABORT (02 R51, 06 R124) -/

/-- The body names no locker. -/
theorem lockerReq_none {body : List Byte} (bad : body.length ≠ 1 ∨ natAt body 0 1 = 0 ∨ 64 < natAt body 0 1) :
    (numberReq 1 body).bind lockerNumber = none := by
  by_cases length : body.length = 1
  · rw [numberReq_of_length length, Option.bind_some]
    have range := bad.resolve_left (not_not.mpr length)
    unfold lockerNumber
    split
    · omega
    · rfl
  · rw [numberReq_length length]; rfl

/-- The body names locker `l`. -/
theorem lockerReq_some {body : List Byte} {l : LockerId} (length : body.length = 1)
    (named : natAt body 0 1 = l.val + 1) : (numberReq 1 body).bind lockerNumber = some l := by
  rw [numberReq_of_length length, Option.bind_some, named]
  simp [lockerNumber]

theorem State.abortOutstanding_iff (s : State) (l : LockerId) : s.abortOutstanding l = true ↔
    ∃ op ∈ s.ops, op.kind = 0x07#8 ∧ op.origin = .purge ∧ op.dest = .column (lockerCol l)
      ∧ op.position = some (lockerPos l) := by
  simp [State.abortOutstanding, Op.isPurge, and_assoc]

theorem State.faultClear_other {s : State} {body : List Byte} {l : LockerId}
    (named : (numberReq 1 body).bind lockerNumber = some l) (other : ∀ f st, (s.locker l).state ≠ .blocked f st) :
    s.faultClear body = s.answer 0x47#8 .inUse [] := by
  simp only [State.faultClear, named]

theorem State.faultClear_blocked {s : State} {body : List Byte} {l : LockerId}
    (named : (numberReq 1 body).bind lockerNumber = some l) {f : LockerFault} {st : Option Stored}
    (blocked : (s.locker l).state = .blocked f st) :
    s.faultClear body =
      let goes : LockerState := if (s.locker l).occupied = .no then .purgeWait else .spoiled st
      (s.enterLocker l goes).answer 0x47#8 .ok (u8 goes.code) := by
  simp only [State.faultClear, named, blocked]

section

variable {s : State} {body : List Byte} {l : LockerId} (named : (numberReq 1 body).bind lockerNumber = some l)
include named

theorem State.purgeAbort_other (other : ∀ t, (s.locker l).state ≠ .purging t) :
    s.purgeAbort body = s.answer 0x4A#8 .inUse [] := by
  have idle : (s.locker l).state.isPurging = false := by
    cases state : (s.locker l).state with
    | purging t => exact absurd state (other t)
    | _ => rfl
  simp only [State.purgeAbort, named, idle]
  rfl

theorem State.purgeAbort_purging {t : Option Nat} (purging : (s.locker l).state = .purging t) :
    s.purgeAbort body =
      if s.reachable (lockerCol l) then
        if s.abortOutstanding l then s.answer 0x4A#8 .accepted []
        else if s.hasRoom then (s.queueAbort l false).answer 0x4A#8 .accepted []
        else s.answer 0x4A#8 .busy []
      else s.answer 0x4A#8 .unreachable [] := by
  simp only [State.purgeAbort, named, purging, LockerState.isPurging, if_true]

end

/-- Settles O36. -/
theorem faultClearAndPurgeAbortByLockerState : Obligations.FaultClearAndPurgeAbortByLockerState := by
  refine ⟨State.abortOutstanding_iff, fun s body rest head => ?clear, fun s body rest head => ?abort⟩
  case clear =>
    let u : State := { s with inbox := rest }
    have run : exec .faultClear s = .next (State.transmit (u.faultClear body)) := exec_faultClear head
    refine ⟨fun bad => run.trans ?_, fun l length number => ?_⟩
    · simp only [State.faultClear, lockerReq_none bad]; rfl
    have named := lockerReq_some length number
    refine ⟨fun other => run.trans (by rw [State.faultClear_other (s := u) named other]; rfl), fun f st blocked => ?_⟩
    have cleared := run.trans (by rw [State.faultClear_blocked (s := u) named blocked])
    refine ⟨fun empty => cleared.trans ?_, fun full => cleared.trans ?_⟩
    · rw [if_pos (show (u.locker l).occupied = .no from empty)]; rfl
    · simp only [if_neg (show ¬(u.locker l).occupied = .no from full)]
      rw [show u8 (LockerState.spoiled st).code = [9#8] from u8_eq 9]
      rfl
  case abort =>
    let u : State := { s with inbox := rest }
    have run : exec .purgeAbort s = .next (State.transmit (u.purgeAbort body)) := exec_purgeAbort head
    intro refuse
    refine ⟨fun bad => run.trans ?_, fun l length number => ?_⟩
    · simp only [State.purgeAbort, lockerReq_none bad]; rfl
    have named := lockerReq_some length number
    refine ⟨fun other => run.trans (by rw [State.purgeAbort_other (s := u) named other]; rfl), fun t purging => ?_⟩
    have tested := run.trans (by rw [State.purgeAbort_purging (s := u) named purging])
    refine ⟨fun away => tested.trans ?_, fun near standing => tested.trans ?_,
      fun near none full => tested.trans ?_, fun near none room => tested.trans ?_⟩
    · rw [if_neg (by rw [show u.reachable (lockerCol l) = false from away]; decide)]; rfl
    · rw [if_pos (show u.reachable (lockerCol l) = true from near),
        if_pos (show u.abortOutstanding l = true from standing)]; rfl
    · rw [if_pos (show u.reachable (lockerCol l) = true from near), if_neg (by rw [show u.abortOutstanding l = false from none]; decide),
        if_neg (by rw [State.hasRoom, show u.freeEntries = 0 from full]; decide)]
      rfl
    · rw [if_pos (show u.reachable (lockerCol l) = true from near), if_neg (by rw [show u.abortOutstanding l = false from none]; decide),
        if_pos (show u.hasRoom = true from decide_eq_true room), State.queueAbort,
        if_neg (by rw [show u.abortOutstanding l = false from none]; decide),
        if_pos (by rw [show u.reachable (lockerCol l) = true from near]; rfl), State.enqueue_room (s := u) room]
      rfl

/-! ## Door-held (02 R49) -/

theorem State.doorHeldDue_quiet {s : State} {l : LockerId} {d : Door} (door : (s.locker l).state.door = some d)
    (quiet : d.since = none ∨ d.reported = true) : s.doorHeldDue l = s := by
  simp only [State.doorHeldDue, door]
  cases (s.locker l).state.sideInUse with
  | none => rfl
  | some side =>
    cases since : d.since with
    | none => simp [since]
    | some t => simp [since, quiet.resolve_left (by simp [since])]

theorem State.doorHeldDue_reports {s : State} {l : LockerId} {d : Door} (door : (s.locker l).state.door = some d)
    {side : Side} (inUse : (s.locker l).state.sideInUse = some side) {t : Time} (since : d.since = some t)
    (fresh : d.reported = false) :
    s.doorHeldDue l =
      ((s.reach (t + (s.locker l).state.heldLimit)).enterLocker l
        ((s.locker l).state.withDoor { d with reported := true })).queueNotice (.doorHeld l side) := by
  simp [State.doorHeldDue, door, inUse, since, fresh]

/-- Settles O37. -/
theorem doorHeldIsReportedOnce : Obligations.DoorHeldIsReportedOnce := by
  intro s l d running door gives
  have run : exec (.doorHeld l) s = .next (State.transmit (s.doorHeldDue l)) := exec_doorHeld running l
  refine ⟨fun quiet => run.trans (by rw [State.doorHeldDue_quiet door quiet]), ?_⟩
  intro t since fresh told
  refine ⟨fun i ph loading => run.trans ?_, fun st ph clearing => run.trans ?_, fun i m opened => run.trans ?_⟩
  · rw [State.doorHeldDue_reports door (by rw [loading]; rfl) since fresh, loading]; rfl
  · rw [State.doorHeldDue_reports door (by rw [clearing]; rfl) since fresh, clearing]; rfl
  · rw [State.doorHeldDue_reports door (by rw [opened]; rfl) since fresh, opened]; rfl

/-! ## Faults (02 R38 to R40) -/

/-- An unbound locker that does not purge is blocked with what it stored. -/
theorem State.block_unbound {s : State} {l : LockerId} (unbound : (s.locker l).state.slot = none)
    (fault : LockerFault) (idle : ((s.locker l).state.isPurging && fault.stopsPurge) = false) :
    s.block l fault =
      (s.setLocker l (s.blockedRecord l fault (s.locker l).state.stored)).queueNotice (.lockerFault l fault) := by
  have stored : s.storedAtFault l fault = (s.locker l).state.stored := by simp [State.storedAtFault, unbound]
  simp only [State.block, stored, unbound, idle, State.tamperOccupied_enterLocker]
  rfl

/-- A purge that the fault stops has its PURGE-ABORT queued. -/
theorem State.block_purging {s : State} {l : LockerId} {t : Option Nat} (purging : (s.locker l).state = .purging t)
    {fault : LockerFault} (stops : fault.stopsPurge = true) :
    s.block l fault =
      ((s.setLocker l (s.blockedRecord l fault none)).queueAbort l false).queueNotice (.lockerFault l fault) := by
  have stored : s.storedAtFault l fault = none := by simp [State.storedAtFault, purging, LockerState.slot,
    LockerState.stored]
  simp only [State.block, stored, purging, stops, State.tamperOccupied_enterLocker]
  rfl

/-- A bound locker leaves its entry's tag where the meal could be inside, and the entry has its own end. -/
theorem State.block_bound {s : State} {l : LockerId} {i : Slot} (bound : (s.locker l).state.slot = some i)
    {r : Reservation} (hr : s.entry i = some r) (fault : LockerFault) :
    s.block l fault =
      ((s.setLocker l (s.blockedRecord l fault
        (if (s.locker l).state.mealPossible then some ⟨r.tag, fault.reason⟩ else none))).faultEntry i
          fault).queueNotice (.lockerFault l fault) := by
  have idle : (s.locker l).state.isPurging = false := by
    cases state : (s.locker l).state with
    | purging t => rw [state] at bound; cases bound
    | _ => rfl
  simp only [State.block, State.storedAtFault, bound, hr, idle, State.tamperOccupied_enterLocker]
  rfl

theorem State.faultEntry_ends {s : State} {i : Slot} {r : Reservation} (hr : s.entry i = some r)
    {fault : LockerFault} (other : fault = .latch → ∀ l, r.stage ≠ .loading l) :
    s.faultEntry i fault = s.endEntry i fault.reason := by
  simp only [State.faultEntry, hr]
  split
  · next l stage => exact absurd stage (other rfl l)
  · rfl

theorem State.faultEntry_undone {s : State} {i : Slot} {r : Reservation} (hr : s.entry i = some r) {l : LockerId}
    (loading : r.stage = .loading l) :
    s.faultEntry i .latch = (s.setEntry i (some { r with stage := .booked })).windowDue i := by
  simp only [State.faultEntry, hr, loading]

theorem LockerFault.reason_timed (f : LockerFault) : f.reason ≠ .notLoaded := by cases f <;> decide

/-- An entry's end by a fault: freed, counted and told (01 R13, R16). -/
theorem State.endEntry_counts {s : State} {i : Slot} {r : Reservation} (hr : s.entry i = some r) {why : Reason}
    (counts : why ≠ .notLoaded) :
    s.endEntry i why = ((s.setEntry i none).countExpired).queueNotice (.expired r.tag why r.stage.locker) := by
  simp only [State.endEntry, hr, if_neg counts]

theorem State.takeFault_block {s : State} {l : LockerId} (present : (s.locker l).state ≠ .absent)
    (open_ : ∀ f st, (s.locker l).state ≠ .blocked f st) (fault : LockerFault) :
    s.takeFault l fault = s.block l fault := by
  unfold State.takeFault
  cases state : (s.locker l).state with
  | absent => exact absurd state present
  | blocked f st => exact absurd state (open_ f st)
  | _ => rfl

theorem State.faultEntry_countsDown {s : State} {i : Slot} {r : Reservation} (hr : s.entry i = some r)
    {fault : LockerFault} (other : fault = .latch → ∀ l, r.stage ≠ .loading l) :
    s.faultEntry i fault =
      ((s.setEntry i none).countExpired).queueNotice (.expired r.tag fault.reason r.stage.locker) :=
  (State.faultEntry_ends hr other).trans (State.endEntry_counts hr fault.reason_timed)

/-- The reason of a fault that finds a bound entry (02 Table 2-4). -/
theorem LockerFault.reason_bound {f : LockerFault} (bound : f = .latch ∨ f = .sensor ∨ f = .overheat ∨ f = .tamper) :
    f.reason = if f = .latch then Reason.latch else if f = .tamper then .tamper else .fault := by
  rcases bound with rfl | rfl | rfl | rfl <;> rfl

theorem LockerFault.stopsPurge_iff (f : LockerFault) :
    f.stopsPurge = true ↔ f = .sensor ∨ f = .overheat ∨ f = .tamper := by
  cases f <;> simp [LockerFault.stopsPurge]

/-- The end of a locker's entry by a fault, with what the locker stores. -/
theorem State.takeFault_ends {s : State} {l : LockerId} {i : Slot} (slot : (s.locker l).state.slot = some i)
    {r : Reservation} (hr : s.entry i = some r) (stage : r.stage.locker = some l) {f : LockerFault}
    (other : f = .latch → ∀ k, r.stage ≠ .loading k) :
    s.takeFault l f =
      State.queueNotice
        (State.queueNotice
          ((State.setEntry (s.setLocker l (s.blockedRecord l f
            (if (s.locker l).state.mealPossible then some ⟨r.tag, f.reason⟩ else none))) i none).countExpired)
          (.expired r.tag f.reason (some l)))
        (.lockerFault l f) := by
  rw [State.takeFault_block (fun h => by rw [h] at slot; cases slot) (fun f st h => by rw [h] at slot; cases slot),
    State.block_bound slot hr, State.faultEntry_countsDown (by simpa using hr) other, stage]

/-- A fault of an unbound locker that stops no purge. -/
theorem State.takeFault_unbound {s : State} {l : LockerId} (slot : (s.locker l).state.slot = none)
    (present : (s.locker l).state ≠ .absent) (open_ : ∀ f st, (s.locker l).state ≠ .blocked f st) {f : LockerFault}
    (idle : ((s.locker l).state.isPurging && f.stopsPurge) = false) :
    s.takeFault l f =
      (s.setLocker l (s.blockedRecord l f (s.locker l).state.stored)).queueNotice (.lockerFault l f) := by
  rw [State.takeFault_block present open_, State.block_unbound slot f idle]

/-- A load that fails to unlatch is undone: its entry is BOOKED again, or NOT-LOADED when it is overdue. -/
theorem State.takeFault_undoes {s : State} {l : LockerId} {i : Slot} {d : Door}
    (loading : (s.locker l).state = .loading i .awaitLatch d) {r : Reservation} (hr : s.entry i = some r)
    (stage : r.stage = .loading l) :
    s.takeFault l .latch =
      ((State.setEntry (s.setLocker l (s.blockedRecord l .latch none)) i (some { r with stage := .booked })).windowDue
        i).queueNotice (.lockerFault l .latch) := by
  have slot : (s.locker l).state.slot = some i := by rw [loading]; rfl
  have impossible : (s.locker l).state.mealPossible = false := by rw [loading]; rfl
  rw [State.takeFault_block (by simp [loading]) (by simp [loading]), State.block_bound slot hr, impossible,
    State.faultEntry_undone (by simpa using hr) stage]
  rfl

/-- Settles O39. -/
theorem faultsBlockTheLocker : Obligations.FaultsBlockTheLocker := by
  intro s l f lk seen blocked ends bound why
  have held {i : Slot} {r : Reservation} (slot : lk.state.slot = some i) (hr : s.entry i = some r)
      (stage : r.stage.locker = some l) (other : f = .latch → ∀ k, r.stage ≠ .loading k) (isBound : bound) :
      s.takeFault l f = ends i r why (if lk.state.mealPossible then some ⟨r.tag, why⟩ else none) := by
    rw [State.takeFault_ends slot hr stage other, f.reason_bound isBound]
    rfl
  refine ⟨fun absent => ?_, fun g st old => ?_, fun unbound => ?_, fun st stored => ?_, fun t purging => ?_,
    fun i m r at_ holding hr stage isBound => ?_, fun i m r at_ p releasing hr stage isBound => ?_,
    fun i m d r at_ p opened hr stage isBound => ?_, fun i ph d r loading hr stage isBound latch => ?_,
    fun i d r loading hr stage latch => ?_⟩
  · simp only [State.takeFault, show (s.locker l).state = .absent from absent]
  · simp only [State.takeFault, show (s.locker l).state = .blocked g st from old, State.tamperOccupied]
    by_cases tamper : f = .tamper
    · simp only [if_pos tamper, seen]; rfl
    · simp only [if_neg tamper, seen]
      exact (congrArg (fun v => { s with lockers := v }) (s.lockers.set_get l)).symm
  · have plain : lk.state.slot = none ∧ lk.state ≠ .absent ∧ (∀ f st, lk.state ≠ .blocked f st)
        ∧ lk.state.isPurging = false ∧ lk.state.stored = none := by
      rcases unbound with state | ⟨t, state⟩ | state <;> rw [state] <;>
        simp [LockerState.slot, LockerState.isPurging, LockerState.stored]
    obtain ⟨slot, present, open_, idle, kept⟩ := plain
    rw [State.takeFault_unbound slot present open_ (by rw [show (s.locker l).state.isPurging = false from idle]; rfl),
      show (s.locker l).state.stored = none from kept]
    rfl
  · have plain : lk.state.slot = none ∧ lk.state ≠ .absent ∧ (∀ f st, lk.state ≠ .blocked f st)
        ∧ lk.state.isPurging = false ∧ lk.state.stored = st := by
      rcases stored with state | ⟨ph, d, state⟩ <;> rw [state] <;>
        simp [LockerState.slot, LockerState.isPurging, LockerState.stored]
    obtain ⟨slot, present, open_, idle, kept⟩ := plain
    rw [State.takeFault_unbound slot present open_ (by rw [show (s.locker l).state.isPurging = false from idle]; rfl),
      show (s.locker l).state.stored = st from kept]
    rfl
  · have state : (s.locker l).state = .purging t := purging
    by_cases stops : f.stopsPurge = true
    · rw [if_pos (f.stopsPurge_iff.mp stops), State.takeFault_block (by simp [state]) (by simp [state]),
        State.block_purging state stops]
      rfl
    · rw [if_neg (mt f.stopsPurge_iff.mpr stops), State.takeFault_unbound (by rw [state]; rfl) (by simp [state])
        (by simp [state]) (by simp [stops]), state]
      rfl
  · rw [held (by rw [holding]; rfl) hr (by rw [stage]; rfl) (fun _ k => by simp [stage]) isBound, holding]; rfl
  · rw [held (by rw [releasing]; rfl) hr (by rw [stage]; rfl) (fun _ k => by simp [stage]) isBound, releasing]; rfl
  · rw [held (by rw [opened]; rfl) hr (by rw [stage]; rfl) (fun _ k => by simp [stage]) isBound, opened]; rfl
  · rw [held (by rw [loading]; rfl) hr (by rw [stage]; rfl) (fun h => absurd h latch) isBound, loading]
    cases ph <;> rfl
  · subst latch
    rw [State.takeFault_undoes loading hr stage]
    let u : State := State.setEntry (s.setLocker l (s.blockedRecord l .latch none)) i (some { r with stage := .booked })
    have entry : u.entry i = some { r with stage := .booked } := by simp [u]
    by_cases overdue : s.overdue r = true
    · rw [if_pos overdue, State.windowDue_booked (s := u) entry overdue rfl]
      simp only [u, State.setEntry, Bank.set_set]
      rfl
    · rw [if_neg overdue, State.windowDue_early (s := u) entry (Bool.not_eq_true _ ▸ overdue)]
      rfl

/-! ## Deadlines of court time (03 R59, 06 R123, R126, 10 R184) -/

theorem State.stallDue_none {s : State} {l : LockerId} (unset : (s.locker l).state = .purging none) :
    s.stallDue l = s := by
  simp only [State.stallDue, unset]

theorem State.restDue_none {s : State} {l : LockerId} (unset : (s.locker l).state = .purgeRest none) :
    s.restDue l = s := by
  simp only [State.restDue, unset]

theorem State.lockoutDue_none {s : State} {c : Col} (unset : (s.column c).lockout = none) :
    s.lockoutDue c = s := by
  simp only [State.lockoutDue, unset]

theorem State.settleDue_none {s : State} {c : Col} (unset : (s.column c).state = .settling none) :
    s.settleDue c = s := by
  simp only [State.settleDue, unset]

section

variable {s : State} {now t : Nat} (court : s.court = some now)
include court

theorem State.stallDue_some {l : LockerId} (purging : (s.locker l).state = .purging (some t)) :
    s.stallDue l =
      if min 4294967295 (t + 600) ≤ now then (s.takeFault l .purgeStall).queueAbort l false else s := by
  simp only [State.stallDue, purging, court] <;> rfl

theorem State.restDue_some {l : LockerId} (rests : (s.locker l).state = .purgeRest (some t)) :
    s.restDue l = if t ≤ now then s.enterLocker l .purgeWait else s := by
  simp only [State.restDue, rests, court]

theorem State.lockoutDue_some {c : Col} (locked : (s.column c).lockout = some t) :
    s.lockoutDue c =
      if t ≤ now then s.setColumn c { s.column c with lockout := none, wrong := 0 } else s := by
  simp only [State.lockoutDue, locked, court]

theorem State.settleDue_some {c : Col} (settles : (s.column c).state = .settling (some t)) :
    s.settleDue c =
      if t ≤ now then
        (s.setColumn c { s.column c with state := .active }).queueNotice (.columnState c .active)
      else s := by
  have active : s.changeState c .active = s.setColumn c { s.column c with state := .active } := by
    simp [State.changeState, settles]
  simp only [State.settleDue, settles, court, active, State.announce, State.column_setColumn]
  simp

end

/-- A purge that stalls blocks its locker (06 R123). -/
theorem State.takeFault_stall {s : State} {l : LockerId} {t : Option Nat} (purging : (s.locker l).state = .purging t) :
    s.takeFault l .purgeStall =
      (s.setLocker l (s.blockedRecord l .purgeStall none)).queueNotice (.lockerFault l .purgeStall) := by
  rw [State.takeFault_unbound (by rw [purging]; rfl) (by simp [purging]) (by simp [purging])
    (by rw [purging]; rfl), purging]
  rfl

/-- Settles O38. -/
theorem courtTimeDeadlinesFallDue : Obligations.CourtTimeDeadlinesFallDue := by
  refine ⟨fun s l now running court => ?lockers, fun s c now t running court => ?columns⟩
  case lockers =>
    have stall : exec (.purgeStall l) s = .next (State.transmit (s.stallDue l)) := exec_purgeStall running l
    have rest : exec (.restEnd l) s = .next (State.transmit (s.restDue l)) := exec_restEnd running l
    refine ⟨fun t purging => ⟨fun early => stall.trans ?_, fun late => stall.trans ?_⟩,
      fun t rests => ⟨fun early => rest.trans ?_, fun late => rest.trans ?_⟩,
      fun unset => stall.trans (by rw [State.stallDue_none unset]),
      fun unset => rest.trans (by rw [State.restDue_none unset])⟩
    · rw [State.stallDue_some court purging, if_neg (not_le.mpr early)]
    · rw [State.stallDue_some court purging, if_pos late, State.takeFault_stall purging]
      rfl
    · rw [State.restDue_some court rests, if_neg (not_le.mpr early)]
    · rw [State.restDue_some court rests, if_pos late]
      rfl
  case columns =>
    have lockout : exec (.lockoutEnd c) s = .next (State.transmit (s.lockoutDue c)) := exec_lockoutEnd running c
    have settle : exec (.settleEnd c) s = .next (State.transmit (s.settleDue c)) := exec_settleEnd running c
    refine ⟨fun locked => ⟨fun early => lockout.trans ?_, fun late => lockout.trans ?_⟩,
      fun settles => ⟨fun early => settle.trans ?_, fun late => settle.trans ?_⟩,
      fun unset => lockout.trans (by rw [State.lockoutDue_none unset]),
      fun unset => settle.trans (by rw [State.settleDue_none unset])⟩
    · rw [State.lockoutDue_some court locked, if_neg (not_le.mpr early)]
    · rw [State.lockoutDue_some court locked, if_pos late]
      rfl
    · rw [State.settleDue_some court settles, if_neg (not_le.mpr early)]
    · rw [State.settleDue_some court settles, if_pos late]
      rfl

end Sys2Proof.Machine
end

section
/-! LOCKER-READ and COLUMN-READ (02 R50, 10 R194, 07 R146). -/

-- The declarations are elaborated one after another, which bounds the memory that their checks take at one time.
set_option Elab.async false

namespace Sys2Proof.Machine

open Config

/-! ## Optional fields and the presence mask (07 R146) -/

theorem beBytes_zero_append (m n : Nat) : beBytes m 0 ++ beBytes n 0 = beBytes (m + n) 0 := by
  induction m with
  | zero => simp [beBytes]
  | succ m ih => simp [beBytes, Nat.succ_add, ih]

theorem beBytes_zero_append_append (m n : Nat) (rest : List Byte) :
    beBytes m 0 ++ (beBytes n 0 ++ rest) = beBytes (m + n) 0 ++ rest := by
  rw [← List.append_assoc, beBytes_zero_append]

@[simp] theorem optBytes_none (n : Nat) : optBytes n none = beBytes n 0 := rfl

@[simp] theorem optBytes_some (n v : Nat) : optBytes n (some v) = beBytes n v := rfl

theorem optBytes_length (n : Nat) (v : Option Nat) : (optBytes n v).length = n := beBytes_length n _

/-- The mask counts a mark with the weight of its place. -/
theorem mul_presenceMask_cons (k : Nat) (b : Bool) (marks : List Bool) :
    k * presenceMask (b :: marks) = (if b then k else 0) + 2 * k * presenceMask marks := by
  cases b
  · simp [presenceMask]
    ring
  · simp [presenceMask]
    ring

theorem presenceMask_cons (b : Bool) (marks : List Bool) :
    presenceMask (b :: marks) = (if b then 1 else 0) + 2 * presenceMask marks := by
  have := mul_presenceMask_cons 1 b marks
  simpa using this

@[simp] theorem presenceMask_nil : presenceMask [] = 0 := rfl

/-! ## The report of a locker -/

/-- The presence marks of a locker's report. -/
def LockerState.marks (st : LockerState) (temp : Bool) : List Bool :=
  [st.slot.isSome, st.stored.isSome, st.stored.isSome, st.fault.isSome, st.phase.isSome,
    (st.meal.map (·.2)).isSome, (st.meal.map (·.2)).isSome, temp, (st.door.bind (·.since)).isSome, (st.door.bind (·.mask)).isSome, st.purgeStarted.isSome,
    st.restUntil.isSome]

/-- The optional fields of a locker's report before the last temperature. -/
def LockerState.heldBytes (st : LockerState) : List Byte :=
  optBytes 1 (st.slot.map (·.val)) ++ optBytes 4 (st.stored.map (·.tag))
    ++ optBytes 1 (st.stored.map (·.reason.code)) ++ optBytes 1 (st.fault.map LockerFault.code)
    ++ optBytes 1 (st.phase.map Phase.code) ++ optBytes 4 ((st.meal.map (·.2)).map (·.deadline))
    ++ optBytes 4 ((st.meal.map (·.2)).map fun m => min maxCourt m.cold)

/-- The optional fields of a locker's report after the last temperature. -/
def LockerState.timeBytes (st : LockerState) (now : Time) : List Byte :=
  optBytes 4 ((st.door.bind (·.since)).map (elapsedMs now)) ++ optBytes 2 ((st.door.bind (·.mask)).map
    (remainingMs now)) ++ optBytes 4 st.purgeStarted ++ optBytes 4 st.restUntil

theorem State.lockerReport_eq (s : State) (l : LockerId) {lk : Locker} (held : s.locker l = lk) :
    s.lockerReport l =
      u8 (l.val + 1) ++ u8 lk.state.code ++ u8 lk.rating ++ u8 lk.occupied.code ++ u8 lk.demand ++ u8 lk.refusals
        ++ beBytes 2 (presenceMask (lk.state.marks lk.lastTemp.isSome)) ++ lk.state.heldBytes
        ++ beInt16 (lk.lastTemp.getD 0) ++ lk.state.timeBytes s.now ++ markByte (s.doorBusy l) :: s.courtBytes := by
  subst held
  unfold State.lockerReport LockerState.marks LockerState.heldBytes LockerState.timeBytes
  simp only [List.append_assoc, List.singleton_append]

/-- The weights of the presence marks but that of the last temperature (07 R146). -/
def LockerState.bits (st : LockerState) : Nat :=
  (if st.slot.isSome then 1 else 0) + (if st.stored.isSome then 6 else 0) + (if st.fault.isSome then 8 else 0)
    + (if st.phase.isSome then 16 else 0) + (if st.meal.isSome then 96 else 0)
    + (if (st.door.bind (·.since)).isSome then 256 else 0) + (if (st.door.bind (·.mask)).isSome then 512 else 0)
    + (if st.purgeStarted.isSome then 1024 else 0) + (if st.restUntil.isSome then 2048 else 0)

theorem LockerState.presenceMask_marks (st : LockerState) (temp : Bool) :
    presenceMask (st.marks temp) = st.bits + if temp then 128 else 0 := by
  have six : (if st.stored.isSome then 6 else 0) = (if st.stored.isSome then 2 else 0)
      + if st.stored.isSome then 4 else 0 := by cases st.stored <;> rfl
  have both : (if st.meal.isSome then 96 else 0) = (if st.meal.isSome then 32 else 0)
      + if st.meal.isSome then 64 else 0 := by cases st.meal <;> rfl
  rw [LockerState.bits, six, both, ← one_mul (presenceMask _)]
  simp only [LockerState.marks, mul_presenceMask_cons, presenceMask_nil, mul_zero, add_zero, mul_one, Nat.reduceMul,
    Option.isSome_map]
  ring

/-- A report of locker `l`: its fixed fields around the bits, fields and times given. -/
def State.reportWith (s : State) (l : LockerId) (bits : Nat) (held times : List Byte) : List Byte :=
  u8 (l.val + 1) ++ u8 (s.locker l).state.code ++ u8 (s.locker l).rating ++ u8 (s.locker l).occupied.code
    ++ u8 (s.locker l).demand ++ u8 (s.locker l).refusals
    ++ beBytes 2 (bits + if (s.locker l).lastTemp.isSome then 128 else 0) ++ held
    ++ beInt16 ((s.locker l).lastTemp.getD 0) ++ times ++ markByte (s.doorBusy l) :: s.courtBytes

/-- The report of a locker, by what its state marks and holds. -/
theorem State.lockerReport_of {s : State} {l : LockerId} {st : LockerState} (state : (s.locker l).state = st)
    {bits : Nat} {held times : List Byte} (marks : st.bits = bits)
    (heldBytes : st.heldBytes = held) (timeBytes : st.timeBytes s.now = times) :
    s.lockerReport l = s.reportWith l bits held times := by
  subst state heldBytes timeBytes marks
  rw [s.lockerReport_eq l rfl, LockerState.presenceMask_marks]
  rfl

theorem State.lockerReport_length (s : State) (l : LockerId) : (s.lockerReport l).length = 46 := by
  simp [s.lockerReport_eq l rfl, LockerState.heldBytes, LockerState.timeBytes, u8_eq, beBytes_length, optBytes_length,
    beInt16, State.courtBytes_length]

/-- The bytes a state holds, by its slot, meal and phase, where it stores nothing and has no fault. -/
theorem LockerState.heldBytes_zero {st : LockerState} (slot : st.slot = .none) (stored : st.stored = none)
    (fault : st.fault = none) (phase : st.phase = none) (meal : st.meal = none) : st.heldBytes = beBytes 16 0 := by
  simp only [LockerState.heldBytes, slot, stored, fault, phase, meal, Option.map_none, optBytes_none,
    beBytes_zero_append]

/-- The time bytes of a state without door timing that waits for no court time. -/
theorem LockerState.timeBytes_zero {st : LockerState} (door : st.door = none) (started : st.purgeStarted = none)
    (rest : st.restUntil = none) (now : Time) : st.timeBytes now = beBytes 14 0 := by
  simp only [LockerState.timeBytes, door, started, rest, Option.bind_none, Option.map_none, optBytes_none,
    beBytes_zero_append]

/-- The marks of a door's timing. -/
def Door.bits (d : Door) : Nat := (if d.since.isSome then 256 else 0) + if d.mask.isSome then 512 else 0

/-- The bytes of a door's timing. -/
def Door.bytes (d : Door) (now : Time) : List Byte :=
  beBytes 4 (match d.since with | some t => min 4294967295 ((now - t) / 1000) | .none => 0)
    ++ beBytes 2 (match d.mask with | some t => (t - now + 999) / 1000 | .none => 0) ++ beBytes 8 0

/-- The time bytes of a state whose door has timing. -/
theorem LockerState.timeBytes_door {st : LockerState} {d : Door} (door : st.door = some d)
    (started : st.purgeStarted = none) (rest : st.restUntil = none) (now : Time) :
    st.timeBytes now = d.bytes now := by
  simp only [LockerState.timeBytes, Door.bytes, door, started, rest, Option.bind_some, optBytes_none, List.append_assoc,
    beBytes_zero_append]
  cases d.since <;> cases d.mask <;> rfl

theorem LockerState.bits_door {st : LockerState} {d : Door} (door : st.door = some d)
    (started : st.purgeStarted = none) (rest : st.restUntil = none) :
    st.bits = (if st.slot.isSome then 1 else 0) + (if st.stored.isSome then 6 else 0)
      + (if st.fault.isSome then 8 else 0) + (if st.phase.isSome then 16 else 0)
      + (if st.meal.isSome then 96 else 0) + d.bits := by
  rw [LockerState.bits, door, started, rest]
  obtain ⟨since, _, mask⟩ := d
  cases since <;> cases mask <;> simp [Door.bits, add_assoc]

/-- The bytes of a held meal. -/
def Meal.bytes (m : Meal) : List Byte := beBytes 4 m.deadline ++ beBytes 4 (min 4294967295 m.cold)

/-- The bytes of a stored tag and reason. -/
def storedBytes (st : Option Stored) : List Byte :=
  beBytes 4 ((st.map Stored.tag).getD 0) ++ u8 ((st.map fun t => t.reason.code).getD 0)

/-- The marks of a stored tag and reason. -/
def storedBits (st : Option Stored) : Nat := if st.isSome then 6 else 0

section

variable {s : State} {l : LockerId}

theorem State.lockerReport_plain
    (plain : (s.locker l).state = .absent ∨ (s.locker l).state = .purgeWait ∨ (s.locker l).state = .empty
      ∨ (s.locker l).state = .purging none ∨ (s.locker l).state = .purgeRest none) :
    s.lockerReport l = s.reportWith l 0 (beBytes 16 0) (beBytes 14 0) := by
  rcases plain with state | state | state | state | state <;>
    exact State.lockerReport_of state rfl
      (LockerState.heldBytes_zero rfl rfl rfl rfl rfl) (LockerState.timeBytes_zero rfl rfl rfl s.now)

theorem State.lockerReport_purging {t : Nat} (state : (s.locker l).state = .purging (some t)) :
    s.lockerReport l = s.reportWith l 1024 (beBytes 16 0) (beBytes 6 0 ++ beBytes 4 t ++ beBytes 4 0) := by
  refine State.lockerReport_of state rfl
    (LockerState.heldBytes_zero rfl rfl rfl rfl rfl) ?_
  simp [LockerState.timeBytes, LockerState.door, LockerState.purgeStarted, LockerState.restUntil, beBytes_zero_append]

theorem State.lockerReport_purgeRest {t : Nat} (state : (s.locker l).state = .purgeRest (some t)) :
    s.lockerReport l = s.reportWith l 2048 (beBytes 16 0) (beBytes 10 0 ++ beBytes 4 t) := by
  refine State.lockerReport_of state rfl
    (LockerState.heldBytes_zero rfl rfl rfl rfl rfl) ?_
  simp [LockerState.timeBytes, LockerState.door, LockerState.purgeStarted, LockerState.restUntil, beBytes_zero_append]

theorem State.lockerReport_loading {i : Slot} {ph : Phase} {d : Door}
    (state : (s.locker l).state = .loading i ph d) :
    s.lockerReport l = s.reportWith l (17 + d.bits)
      (u8 i.val ++ beBytes 6 0 ++ u8 ph.code ++ beBytes 8 0) (d.bytes s.now) := by
  refine State.lockerReport_of state ?_ ?_ (LockerState.timeBytes_door (d := d) rfl rfl rfl s.now)
  · refine (LockerState.bits_door (d := d) rfl rfl rfl).trans ?_
    simp [LockerState.slot, LockerState.stored, LockerState.fault, LockerState.phase, LockerState.meal]
  · simp [LockerState.heldBytes, LockerState.slot, LockerState.stored, LockerState.fault, LockerState.phase,
      LockerState.meal, beBytes_zero_append, u8]

theorem State.lockerReport_holding {i : Slot} {m : Meal} (state : (s.locker l).state = .holding i m) :
    s.lockerReport l = s.reportWith l 97 (u8 i.val ++ beBytes 7 0 ++ m.bytes) (beBytes 14 0) := by
  refine State.lockerReport_of state rfl ?_ (LockerState.timeBytes_zero rfl rfl rfl s.now)
  simp [LockerState.heldBytes, LockerState.slot, LockerState.stored, LockerState.fault, LockerState.phase,
    LockerState.meal, Meal.bytes, beBytes_zero_append_append, u8, maxCourt]

theorem State.lockerReport_releasing {i : Slot} {m : Meal} (state : (s.locker l).state = .releasing i m) :
    s.lockerReport l = s.reportWith l 113 (u8 i.val ++ beBytes 6 0 ++ u8 1 ++ m.bytes) (beBytes 14 0) := by
  refine State.lockerReport_of state rfl ?_ (LockerState.timeBytes_zero rfl rfl rfl s.now)
  simp [LockerState.heldBytes, LockerState.slot, LockerState.stored, LockerState.fault, LockerState.phase,
    LockerState.meal, Meal.bytes, Phase.code, beBytes_zero_append_append, u8, maxCourt]

theorem State.lockerReport_opened {i : Slot} {m : Meal} {d : Door} (state : (s.locker l).state = .opened i m d) :
    s.lockerReport l = s.reportWith l (113 + d.bits)
      (u8 i.val ++ beBytes 6 0 ++ u8 2 ++ m.bytes) (d.bytes s.now) := by
  refine State.lockerReport_of state ?_ ?_ (LockerState.timeBytes_door (d := d) rfl rfl rfl s.now)
  · refine (LockerState.bits_door (d := d) rfl rfl rfl).trans ?_
    simp [LockerState.slot, LockerState.stored, LockerState.fault, LockerState.phase, LockerState.meal]
  · simp [LockerState.heldBytes, LockerState.slot, LockerState.stored, LockerState.fault, LockerState.phase,
      LockerState.meal, Meal.bytes, Phase.code, beBytes_zero_append_append, u8, maxCourt]

theorem State.lockerReport_spoiled {st : Option Stored} (state : (s.locker l).state = .spoiled st) :
    s.lockerReport l = s.reportWith l (storedBits st) (u8 0 ++ storedBytes st ++ beBytes 10 0) (beBytes 14 0) := by
  refine State.lockerReport_of state ?_ ?_ (LockerState.timeBytes_zero rfl rfl rfl s.now)
  · cases st <;> rfl
  · simp [LockerState.heldBytes, LockerState.slot, LockerState.stored, LockerState.fault, LockerState.phase,
      LockerState.meal, storedBytes, optBytes, beBytes_zero_append, u8]

theorem State.lockerReport_clearing {st : Option Stored} {ph : Phase} {d : Door}
    (state : (s.locker l).state = .clearing st ph d) :
    s.lockerReport l = s.reportWith l (16 + storedBits st + d.bits)
      (u8 0 ++ storedBytes st ++ u8 0 ++ u8 ph.code ++ beBytes 8 0) (d.bytes s.now) := by
  refine State.lockerReport_of state ?_ ?_ (LockerState.timeBytes_door (d := d) rfl rfl rfl s.now)
  · refine (LockerState.bits_door (d := d) rfl rfl rfl).trans ?_
    simp [LockerState.slot, LockerState.stored, LockerState.fault, LockerState.phase, LockerState.meal, storedBits,
      add_comm] <;> rfl
  · simp [LockerState.heldBytes, LockerState.slot, LockerState.stored, LockerState.fault, LockerState.phase,
      LockerState.meal, storedBytes, optBytes, beBytes_zero_append, u8]

theorem State.lockerReport_blocked {f : LockerFault} {st : Option Stored}
    (state : (s.locker l).state = .blocked f st) :
    s.lockerReport l = s.reportWith l (8 + storedBits st)
      (u8 0 ++ storedBytes st ++ u8 f.code ++ beBytes 9 0) (beBytes 14 0) := by
  refine State.lockerReport_of state ?_ ?_ (LockerState.timeBytes_zero rfl rfl rfl s.now)
  · cases st <;> rfl
  · simp [LockerState.heldBytes, LockerState.slot, LockerState.stored, LockerState.fault, LockerState.phase,
      LockerState.meal, storedBytes, optBytes, beBytes_zero_append, u8]

end

/-! ## The report of a column -/

theorem bank_cells {α : Type} {n : Nat} (b : Bank α n) : b.cells = (List.finRange n).map b.get := by
  apply List.ext_getElem
  · simp [b.size]
  · intro i _ _
    simp [Bank.get]

theorem State.columnReport_length (s : State) (c : Col) : (s.columnReport c).length = 32 := by
  have granted : ((s.column c).granted.cells.flatMap u8).length = 8 := by
    simp [List.length_flatMap, u8_eq, (s.column c).granted.size]
  simp only [List.length_append, State.columnReport, granted]
  simp [u8_eq, beBytes_length, optBytes_length, State.courtBytes_length]

/-- The body names no column. -/
theorem columnReq_none {body : List Byte} (bad : body.length ≠ 1 ∨ natAt body 0 1 = 0 ∨ 8 < natAt body 0 1) :
    (numberReq 1 body).bind columnNumber = none := by
  by_cases length : body.length = 1
  · rw [numberReq_of_length length, Option.bind_some]
    have range := bad.resolve_left (not_not.mpr length)
    unfold columnNumber
    split
    · omega
    · rfl
  · rw [numberReq_length length]; rfl

/-- The body names column `c`. -/
theorem columnReq_some {body : List Byte} {c : Col} (length : body.length = 1)
    (named : natAt body 0 1 = c.val + 1) : (numberReq 1 body).bind columnNumber = some c := by
  rw [numberReq_of_length length, Option.bind_some, named]
  simp [columnNumber]

/-! ## The reads (02 R50, 10 R194) -/

/-- Settles O35. -/
theorem readsReportAndChangeNothing : Obligations.ReadsReportAndChangeNothing := by
  refine ⟨fun _ _ _ _ _ _ _ _ => rfl, rfl, rfl, rfl, rfl, fun s => ?court, fun s body rest =>
    ⟨fun head => ⟨fun bad => ?_, fun l length named => ?_⟩, fun head => ⟨fun bad => ?_, fun c length named => ?_⟩,
      fun l => ?locker, fun c => ?column⟩⟩
  case court => unfold State.courtBytes; cases s.court <;> rfl
  · rw [exec_lockerRead head]
    simp only [State.lockerRead, lockerReq_none bad]; rfl
  · rw [exec_lockerRead head]
    simp only [State.lockerRead, lockerReq_some length named]; rfl
  · rw [exec_columnRead head]
    simp only [State.columnRead, columnReq_none bad]; rfl
  · rw [exec_columnRead head]
    simp only [State.columnRead, columnReq_some length named]; rfl
  case locker =>
    intro lk bit meal since left door doorBits kept keptBits report
    exact ⟨s.lockerReport_length l, State.lockerReport_plain, fun t => State.lockerReport_purging,
      fun t => State.lockerReport_purgeRest, fun i ph d loading => State.lockerReport_loading loading,
      fun i m holding => State.lockerReport_holding holding,
      fun i m releasing => State.lockerReport_releasing releasing,
      fun i m d opened => State.lockerReport_opened opened, fun st spoiled => State.lockerReport_spoiled spoiled,
      fun st ph d clearing => State.lockerReport_clearing clearing,
      fun f st blocked => State.lockerReport_blocked blocked⟩
  case column =>
    intro col settle bit
    have granted : col.granted.cells.flatMap u8 = allPos.flatMap fun p => u8 (col.granted.get p) := by
      rw [bank_cells col.granted, List.flatMap_map]
      rfl
    have held : col.state.settleUntil = settle := by
      simp only [settle]
      cases col.state <;> rfl
    have mask : ∀ a b c : Bool, presenceMask [a, b, c] = bit a 1 + bit b 2 + bit c 4 := by decide
    refine ⟨s.columnReport_length c, ?_⟩
    simp only [State.columnReport]
    rw [granted, held, mask]
    rfl

end Sys2Proof.Machine
end

section
/-! Door and latch events: the ends of a release, of a load and of a clearing (02 R41 to R46, 03 R65 to R72, 04 R82 to
R94). -/

-- The declarations are elaborated one after another, which bounds the memory that their checks take at one time.
set_option Elab.async false

namespace Sys2Proof.Machine

open Config

/-! ## A notice and a write of a record -/

section

variable (s : State) (n : Notice)

@[simp] theorem State.locker_queueNotice (l : LockerId) : (s.queueNotice n).locker l = s.locker l := by
  simp [State.locker]

@[simp] theorem State.entry_queueNotice (i : Slot) : (s.queueNotice n).entry i = s.entry i := by
  simp [State.entry]

@[simp] theorem State.setLocker_queueNotice (l : LockerId) (v : Locker) :
    (s.queueNotice n).setLocker l v = (s.setLocker l v).queueNotice n := by
  unfold State.queueNotice State.setLocker
  split <;> rfl

@[simp] theorem State.setEntry_queueNotice (i : Slot) (e : Option Reservation) :
    (s.queueNotice n).setEntry i e = (s.setEntry i e).queueNotice n := by
  unfold State.queueNotice State.setEntry
  split <;> rfl

@[simp] theorem State.enterLocker_queueNotice (l : LockerId) (st : LockerState) :
    (s.queueNotice n).enterLocker l st = (s.enterLocker l st).queueNotice n := by
  simp [State.enterLocker]

@[simp] theorem State.countExpired_queueNotice : (s.queueNotice n).countExpired = s.countExpired.queueNotice n := by
  unfold State.queueNotice State.countExpired
  split <;> rfl

@[simp] theorem State.overdue_queueNotice (r : Reservation) : (s.queueNotice n).overdue r = s.overdue r := by
  simp [State.overdue]

end

@[simp] theorem State.overdue_enterLocker (s : State) (l : LockerId) (st : LockerState) (r : Reservation) :
    (s.enterLocker l st).overdue r = s.overdue r := rfl

@[simp] theorem State.overdue_setEntry (s : State) (i : Slot) (e : Option Reservation) (r : Reservation) :
    (s.setEntry i e).overdue r = s.overdue r := rfl

@[simp] theorem State.overdue_setOccupied (s : State) (l : LockerId) (o : Occupied) (r : Reservation) :
    (s.setOccupied l o).overdue r = s.overdue r := rfl

@[simp] theorem State.setEntry_setEntry (s : State) (i : Slot) (e f : Option Reservation) :
    (s.setEntry i e).setEntry i f = s.setEntry i f := by
  simp [State.setEntry]

@[simp] theorem State.enterLocker_setEntry (s : State) (i : Slot) (e : Option Reservation) (l : LockerId)
    (st : LockerState) : (s.setEntry i e).enterLocker l st = (s.enterLocker l st).setEntry i e := rfl

/-- The state a locker has left shows in nothing but the state, where that state resets no field. -/
theorem State.enterLocker_again {a : LockerState} (plain : ∀ lk : Locker, lk.enter a = { lk with state := a })
    (s : State) (l : LockerId) (b : LockerState) : (s.enterLocker l a).enterLocker l b = s.enterLocker l b := by
  have last : ∀ lk : Locker, Locker.enter { lk with state := a } b = lk.enter b := fun lk => by cases b <;> rfl
  simp only [State.enterLocker, State.locker_setLocker, if_true, plain, last]
  simp [State.setLocker]

theorem State.overdue_iff (s : State) (r : Reservation) :
    s.overdue r = true ↔ ∃ t, s.court = some t ∧ r.closes ≤ t := by
  cases court : s.court <;> simp [State.overdue, court]

/-! ## The branches of the door events (02 R41 to R46) -/

section

variable {s : State} {l : LockerId} {side : Side}

theorem State.masked_of {d : Door} (door : (s.locker l).state.door = some d)
    (inside : ∃ t, d.mask = some t ∧ s.now < t) : s.masked l = true := by
  obtain ⟨t, mask, early⟩ := inside
  simp [State.masked, door, mask, early]

theorem State.masked_past {d : Door} (door : (s.locker l).state.door = some d)
    (past : ∀ t, d.mask = some t → t ≤ s.now) : s.masked l = false := by
  simp only [State.masked, door]
  cases mask : d.mask with
  | none => rfl
  | some t => simpa using past t mask

theorem State.masked_none (door : (s.locker l).state.door = none) : s.masked l = false := by
  simp [State.masked, door]

theorem LockerState.present_of_sideInUse {st : LockerState} (used : st.sideInUse = some side) : st ≠ .absent := by
  rintro rfl
  cases used

theorem State.doorOpened_used (used : (s.locker l).state.sideInUse = some side) :
    s.doorOpened l side = if s.masked l then s else (s.confirmByEvent l).noteOpening l := by
  have present := LockerState.present_of_sideInUse used
  unfold State.doorOpened
  split
  · next absent => exact absurd absent present
  · exact if_pos used

theorem State.doorOpened_unused (present : (s.locker l).state ≠ .absent)
    (unused : (s.locker l).state.sideInUse ≠ some side) : s.doorOpened l side = s.takeFault l .tamper := by
  unfold State.doorOpened
  split
  · next absent => exact absurd absent present
  · exact if_neg unused

theorem State.doorClosed_used (used : (s.locker l).state.sideInUse = some side) (occ : Bool) :
    s.doorClosed l side occ =
      if s.masked l then s
      else ((s.setOccupied l (if occ then .yes else .no)).confirmByEvent l).closing l occ := by
  have present := LockerState.present_of_sideInUse used
  unfold State.doorClosed
  split
  · next absent => exact absurd absent present
  · exact if_pos used

theorem State.doorClosed_unused (present : (s.locker l).state ≠ .absent)
    (unused : (s.locker l).state.sideInUse ≠ some side) (occ : Bool) :
    s.doorClosed l side occ = s.setOccupied l (if occ then .yes else .no) := by
  unfold State.doorClosed
  split
  · next absent => exact absurd absent present
  · exact if_neg unused

theorem State.relatched_used (used : (s.locker l).state.sideInUse = some side) :
    s.relatched l side = (s.confirmByEvent l).relatching l := if_pos used

theorem State.relatched_unused (unused : (s.locker l).state.sideInUse ≠ some side) : s.relatched l side = s :=
  if_neg unused

theorem State.events_absent (absent : (s.locker l).state = .absent) :
    s.doorOpened l side = s ∧ (∀ occ, s.doorClosed l side occ = s) ∧ s.relatched l side = s := by
  refine ⟨by simp only [State.doorOpened, absent], fun occ => by simp only [State.doorClosed, absent], ?_⟩
  exact State.relatched_unused (by rw [absent]; nofun)

theorem LockerState.sideInUse_iff {st : LockerState} : st.sideInUse = some side ↔
    match side with
    | .front => (∃ i m, st = .releasing i m) ∨ ∃ i m d, st = .opened i m d
    | .back => (∃ i ph d, st = .loading i ph d) ∨ ∃ t ph d, st = .clearing t ph d := by
  cases side <;> cases st <;> simp [LockerState.sideInUse]

theorem State.confirmByEvent_known (known : (s.locker l).state.phase ≠ some .awaitLatch) :
    s.confirmByEvent l = s := if_neg known

theorem State.confirmByEvent_awaits (awaits : (s.locker l).state.phase = some .awaitLatch) :
    s.confirmByEvent l = s.confirmLatch l none := if_pos awaits

theorem State.confirmLatch_releasing {i : Slot} {m : Meal} (releasing : (s.locker l).state = .releasing i m)
    {r : Reservation} (hr : s.entry i = some r) {at_ : Nat} {p : Option Reason} (stage : r.stage = .releasing l at_ p)
    (mask : Option Time) :
    s.confirmLatch l mask =
      ((s.enterLocker l (.opened i m ⟨none, false, mask⟩)).setEntry i
        (some { r with stage := .opened l at_ p })).queueNotice (.released r.tag l) := by
  have bound : s.boundEntry i l = some r := State.boundEntry_some.mpr ⟨hr, by rw [stage]; rfl⟩
  simp only [State.confirmLatch, releasing, bound, stage, Stage.unlatched]

theorem State.noteOpening_first {i : Slot} {m : Meal} {d : Door} (opened : (s.locker l).state = .opened i m d)
    (first : d.since = none) : s.noteOpening l = s.enterLocker l (.opened i m { d with since := some s.now }) := by
  simp only [State.noteOpening, opened, if_pos first]

theorem State.noteOpening_again {i : Slot} {m : Meal} {d : Door} (opened : (s.locker l).state = .opened i m d)
    (again : d.since ≠ none) : s.noteOpening l = s := by
  simp only [State.noteOpening, opened, if_neg again]

theorem State.noteOpening_other (other : ∀ i m d, (s.locker l).state ≠ .opened i m d) : s.noteOpening l = s := by
  unfold State.noteOpening
  split
  · next i m d opened => exact absurd opened (other i m d)
  · rfl

end

/-! ## The ends of a release (03 R69 to R72) -/

/-- An entry bound to locker `l` expires: the locker is SPOILED with its tag (01 R13). -/
theorem State.expireSpoiled_bound {s : State} {i : Slot} {r : Reservation} (hr : s.entry i = some r) {l : LockerId}
    (bound : r.stage.locker = some l) {why : Reason} (counts : why ≠ .notLoaded) :
    s.expireSpoiled i why =
      (((s.enterLocker l (.spoiled (some ⟨r.tag, why⟩))).setEntry i none).countExpired).queueNotice
        (.expired r.tag why (some l)) := by
  simp [State.expireSpoiled, State.expire, State.endEntry, hr, bound, counts]

section

variable {s : State} {l : LockerId} {i : Slot} {m : Meal} {r : Reservation} {at_ : Nat}
  (meal : (s.locker l).state.meal = some (i, m)) (hr : s.entry i = some r)
include meal hr

theorem State.collectMeal_eq {p : Option Reason} (stage : r.stage = .releasing l at_ p ∨ r.stage = .opened l at_ p) :
    s.collectMeal l =
      ((s.enterLocker l .purgeWait).setEntry i none).queueNotice (.collected r.tag l p.isSome) := by
  have bound : s.boundEntry i l = some r :=
    State.boundEntry_some.mpr ⟨hr, by rcases stage with stage | stage <;> rw [stage] <;> rfl⟩
  rcases stage with stage | stage <;> simp only [State.collectMeal, meal, bound, stage]

variable (notice : Nat → LockerId → Notice)

/-- A meal comes back without an expiry pending. -/
theorem State.returnMeal_eq (stage : r.stage = .releasing l at_ none ∨ r.stage = .opened l at_ none) :
    s.returnMeal l notice =
      (((s.enterLocker l (.holding i m)).setEntry i (some { r with stage := .ready l at_ })).queueNotice
        (notice r.tag l)).windowDue i := by
  have bound : s.boundEntry i l = some r :=
    State.boundEntry_some.mpr ⟨hr, by rcases stage with stage | stage <;> rw [stage] <;> rfl⟩
  rcases stage with stage | stage <;> simp only [State.returnMeal, meal, bound, stage]

/-- A returned meal is READY and HOLDING again. -/
theorem State.returnMeal_ready (stage : r.stage = .releasing l at_ none ∨ r.stage = .opened l at_ none)
    (early : s.overdue r = false) :
    s.returnMeal l notice =
      ((s.enterLocker l (.holding i m)).setEntry i (some { r with stage := .ready l at_ })).queueNotice
        (notice r.tag l) := by
  rw [State.returnMeal_eq meal hr notice stage]
  exact State.windowDue_early (r := { r with stage := .ready l at_ }) (by simp)
    (by simp only [State.overdue_queueNotice, State.overdue_setEntry, State.overdue_enterLocker]; exact early)

/-- A returned meal whose entry is overdue expires WINDOW after its notice (01 R12). -/
theorem State.returnMeal_overdue (stage : r.stage = .releasing l at_ none ∨ r.stage = .opened l at_ none)
    (late : s.overdue r = true) :
    s.returnMeal l notice =
      (((((s.enterLocker l (.spoiled (some ⟨r.tag, .window⟩))).setEntry i none).countExpired).queueNotice
        (notice r.tag l)).queueNotice (.expired r.tag .window (some l))) := by
  rw [State.returnMeal_eq meal hr notice stage,
    State.windowDue_brings (r := { r with stage := .ready l at_ }) (by simp)
      (by simp only [State.overdue_queueNotice, State.overdue_setEntry, State.overdue_enterLocker]; exact late) (by simp)
      (by simp),
    State.bringTimed_ready (r := { r with stage := .ready l at_ }) (by simp) rfl (by decide)]
  simp only [State.enterLocker_queueNotice, State.setEntry_queueNotice, State.countExpired_queueNotice,
    State.enterLocker_setEntry, State.setEntry_setEntry, State.enterLocker_again (a := .holding i m) fun _ => rfl]

theorem State.returnMeal_pending {why : Reason}
    (stage : r.stage = .releasing l at_ (some why) ∨ r.stage = .opened l at_ (some why)) (counts : why ≠ .notLoaded) :
    s.returnMeal l notice =
      (((s.enterLocker l (.spoiled (some ⟨r.tag, why⟩))).setEntry i none).countExpired).queueNotice
        (.expired r.tag why (some l)) := by
  have locker : r.stage.locker = some l := by rcases stage with stage | stage <;> rw [stage] <;> rfl
  have bound : s.boundEntry i l = some r := State.boundEntry_some.mpr ⟨hr, locker⟩
  have expires : s.returnMeal l notice = s.expireSpoiled i why := by
    rcases stage with stage | stage <;> simp only [State.returnMeal, meal, bound, stage]
  exact expires.trans (State.expireSpoiled_bound hr locker counts)

end

/-- RELEASED is queued where the event has confirmed the latch (03 R65). -/
def State.tellReleased (first : Bool) (tag : Nat) (l : LockerId) (s : State) : State :=
  if first then s.queueNotice (.released tag l) else s

theorem State.countExpired_tellReleased (first : Bool) (tag : Nat) (l : LockerId) (s : State) :
    (s.tellReleased first tag l).countExpired = s.countExpired.tellReleased first tag l := by
  cases first
  · rfl
  · exact State.countExpired_queueNotice s _

/-- A release of entry `r` stands at locker `l`: before its latch is confirmed, when `first` is true, or after. -/
structure State.AtFront (s : State) (l : LockerId) (i : Slot) (m : Meal) (r : Reservation) (at_ : Nat)
    (p : Option Reason) (first : Bool) : Prop where
  entry : s.entry i = some r
  stands : first = true ∧ (s.locker l).state = .releasing i m ∧ r.stage = .releasing l at_ p
    ∨ first = false ∧ (∃ d, (s.locker l).state = .opened i m d) ∧ r.stage = .opened l at_ p

section

variable {s : State} {l : LockerId} {i : Slot} {m : Meal} {r : Reservation} {at_ : Nat} {p : Option Reason}
  {first : Bool} (front : s.AtFront l i m r at_ p first)
include front

/-- The confirmed release: what its next write leaves of it is the RELEASED notice. -/
theorem State.AtFront.confirmed :
    (∃ d, ((s.confirmByEvent l).locker l).state = .opened i m d)
      ∧ ((s.confirmByEvent l).locker l).state.meal = some (i, m)
      ∧ (s.confirmByEvent l).entry i = some { r with stage := .opened l at_ p }
      ∧ (∀ st e, ((s.confirmByEvent l).enterLocker l st).setEntry i e
          = ((s.enterLocker l st).setEntry i e).tellReleased first r.tag l)
      ∧ ∀ q, (s.confirmByEvent l).overdue q = s.overdue q := by
  obtain ⟨hr, ⟨rfl, releasing, stage⟩ | ⟨rfl, ⟨d, opened⟩, stage⟩⟩ := front
  · rw [State.confirmByEvent_awaits (by rw [releasing]; rfl), State.confirmLatch_releasing releasing hr stage]
    refine ⟨⟨⟨none, false, none⟩, ?_⟩, ?_, ?_, fun st e => ?_, fun q => ?_⟩
    · simp [Locker.enter]
    · simp [Locker.enter, LockerState.meal]
    · simp
    · simp only [State.enterLocker_queueNotice, State.setEntry_queueNotice, State.enterLocker_setEntry,
        State.setEntry_setEntry, State.enterLocker_again (a := .opened i m ⟨none, false, none⟩) fun _ => rfl]
      rfl
    · simp only [State.overdue_queueNotice, State.overdue_setEntry, State.overdue_enterLocker]
  · rw [State.confirmByEvent_known (by rw [opened]; nofun)]
    refine ⟨⟨d, opened⟩, by rw [opened]; rfl, ?_, fun st e => rfl, fun q => rfl⟩
    rw [hr, ← stage]

theorem State.AtFront.closing_eq (occ : Bool) : (s.confirmByEvent l).closing l occ =
    if occ then (s.confirmByEvent l).returnMeal l .returned else (s.confirmByEvent l).collectMeal l := by
  obtain ⟨⟨d, opened⟩, _⟩ := front.confirmed
  simp only [State.closing, opened]

theorem State.AtFront.relatching_eq :
    (s.confirmByEvent l).relatching l = (s.confirmByEvent l).returnMeal l .notOpened := by
  obtain ⟨⟨d, opened⟩, _⟩ := front.confirmed
  simp only [State.relatching, opened]

theorem State.AtFront.collects : (s.confirmByEvent l).collectMeal l =
    (((s.enterLocker l .purgeWait).setEntry i none).tellReleased first r.tag l).queueNotice
      (.collected r.tag l p.isSome) := by
  obtain ⟨_, meal, entry, writes, _⟩ := front.confirmed
  rw [State.collectMeal_eq meal entry (.inr rfl), writes]

variable (notice : Nat → LockerId → Notice)

theorem State.AtFront.returns_ready (unset : p = none) (early : s.overdue r = false) :
    (s.confirmByEvent l).returnMeal l notice =
      (((s.enterLocker l (.holding i m)).setEntry i (some { r with stage := .ready l at_ })).tellReleased first r.tag
        l).queueNotice (notice r.tag l) := by
  subst unset
  obtain ⟨_, meal, entry, writes, overdue⟩ := front.confirmed
  rw [State.returnMeal_ready meal entry notice (.inr rfl) ((overdue _).trans early), writes]

theorem State.AtFront.returns_overdue (unset : p = none) (late : s.overdue r = true) :
    (s.confirmByEvent l).returnMeal l notice =
      (((((s.enterLocker l (.spoiled (some ⟨r.tag, .window⟩))).setEntry i none).countExpired).tellReleased first r.tag
        l).queueNotice (notice r.tag l)).queueNotice (.expired r.tag .window (some l)) := by
  subst unset
  obtain ⟨_, meal, entry, writes, overdue⟩ := front.confirmed
  rw [State.returnMeal_overdue meal entry notice (.inr rfl) ((overdue _).trans late), writes,
    State.countExpired_tellReleased]

theorem State.AtFront.returns_pending {why : Reason} (pending : p = some why) (counts : why ≠ .notLoaded) :
    (s.confirmByEvent l).returnMeal l notice =
      ((((s.enterLocker l (.spoiled (some ⟨r.tag, why⟩))).setEntry i none).countExpired).tellReleased first r.tag
        l).queueNotice (.expired r.tag why (some l)) := by
  subst pending
  obtain ⟨_, meal, entry, writes, _⟩ := front.confirmed
  rw [State.returnMeal_pending meal entry notice (.inr rfl) counts, writes, State.countExpired_tellReleased]

/-- What a door event writes of occupied leaves the release standing. -/
theorem State.AtFront.setOccupied (o : Occupied) : (s.setOccupied l o).AtFront l i m r at_ p first := by
  obtain ⟨hr, stands⟩ := front
  refine ⟨by simpa [State.setOccupied] using hr, ?_⟩
  simpa [State.setOccupied] using stands

end

theorem State.enterLocker_setOccupied (s : State) (l : LockerId) (o : Occupied) (st : LockerState) :
    (s.setOccupied l o).enterLocker l st = s.setLocker l (Locker.enter { s.locker l with occupied := o } st) := by
  have held : (s.setOccupied l o).locker l = { s.locker l with occupied := o } := by simp [State.setOccupied]
  rw [State.enterLocker, held]
  simp [State.setOccupied, State.setLocker]

theorem State.setOccupied_self (s : State) (l : LockerId) : s.setOccupied l (s.locker l).occupied = s :=
  congrArg (fun v => { s with lockers := v }) (s.lockers.set_get l)

/-- Settles O40. -/
theorem frontDoorEndsARelease : Obligations.FrontDoorEndsARelease := by
  refine ⟨fun s l i m r at_ p hr => ?release, fun s l side => ?unused⟩
  case release =>
    intro lk put tells spoils collects returns
    have returned {first : Bool} (front : s.AtFront l i m r at_ p first) (o : Occupied)
        (notice : Nat → LockerId → Notice) :
        returns first o (notice r.tag l) (((s.setOccupied l o).confirmByEvent l).returnMeal l notice) := by
      have standing := front.setOccupied o
      refine ⟨fun unset early => ?_, fun unset late => ?_, fun why pending counts => ?_⟩
      · rw [standing.returns_ready notice unset (Bool.not_eq_true _ ▸ mt (s.overdue_iff r).mp early),
          State.enterLocker_setOccupied]
        rfl
      · rw [standing.returns_overdue notice unset ((s.overdue_iff r).mpr late), State.enterLocker_setOccupied]
        rfl
      · rw [standing.returns_pending notice pending counts, State.enterLocker_setOccupied]
        rfl
    have events {first : Bool} (front : s.AtFront l i m r at_ p first) :
        ((s.setOccupied l .no).confirmByEvent l).closing l false = collects first
        ∧ returns first .yes (.returned r.tag l) (((s.setOccupied l .yes).confirmByEvent l).closing l true)
        ∧ returns first lk.occupied (.notOpened r.tag l) ((s.confirmByEvent l).relatching l) := by
      refine ⟨?_, ?_, ?_⟩
      · rw [(front.setOccupied .no).closing_eq]
        refine (front.setOccupied .no).collects.trans ?_
        rw [State.enterLocker_setOccupied]
        rfl
      · rw [(front.setOccupied .yes).closing_eq]
        exact returned front .yes .returned
      · rw [front.relatching_eq]
        have := returned front lk.occupied .notOpened
        rwa [State.setOccupied_self] at this
    refine ⟨fun releasing stage => ?_, fun d opened stage => ?_⟩
    · have used : (s.locker l).state.sideInUse = some .front := by rw [show _ = _ from releasing]; rfl
      have unmasked : ¬s.masked l = true := by
        rw [State.masked_none (by rw [show (s.locker l).state = _ from releasing]; rfl)]; nofun
      obtain ⟨collected, again, notOpened⟩ := events ⟨hr, .inl ⟨rfl, releasing, stage⟩⟩
      refine ⟨?_, ?_, ?_, ?_⟩
      · rw [State.doorOpened_used used, if_neg unmasked,
          State.confirmByEvent_awaits (by rw [show (s.locker l).state = _ from releasing]; rfl),
          State.confirmLatch_releasing releasing hr stage,
          State.noteOpening_first (i := i) (m := m) (d := ⟨none, false, none⟩) (by simp [Locker.enter]) rfl]
        simp only [State.enterLocker_queueNotice, State.enterLocker_setEntry, State.queueNotice_fields,
          State.enterLocker_again (a := .opened i m ⟨none, false, none⟩) fun _ => rfl]
        rfl
      · rw [State.doorClosed_used used, if_neg unmasked]; exact collected
      · rw [State.doorClosed_used used, if_neg unmasked]; exact again
      · rw [State.relatched_used used]; exact notOpened
    · have used : (s.locker l).state.sideInUse = some .front := by rw [show _ = _ from opened]; rfl
      have door : (s.locker l).state.door = some d := by rw [show _ = _ from opened]; rfl
      obtain ⟨collected, again, notOpened⟩ := events ⟨hr, .inr ⟨rfl, ⟨d, opened⟩, stage⟩⟩
      refine ⟨?_, fun inside => ?_, fun past => ?_⟩
      · rw [State.relatched_used used]; exact notOpened
      · have masked := State.masked_of door inside
        exact ⟨(State.doorOpened_used used).trans (if_pos masked),
          fun occ => (State.doorClosed_used used occ).trans (if_pos masked)⟩
      · have unmasked : ¬s.masked l = true := by rw [State.masked_past door past]; nofun
        have known : s.confirmByEvent l = s :=
          State.confirmByEvent_known (by rw [show (s.locker l).state = _ from opened]; nofun)
        refine ⟨fun first => ?_, fun later => ?_, ?_, ?_⟩
        · rw [State.doorOpened_used used, if_neg unmasked, known, State.noteOpening_first opened first]; rfl
        · rw [State.doorOpened_used used, if_neg unmasked, known, State.noteOpening_again opened later]
        · rw [State.doorClosed_used used, if_neg unmasked]; exact collected
        · rw [State.doorClosed_used used, if_neg unmasked]; exact again
  case unused =>
    intro lk used
    have inUse : lk.state.sideInUse = some side ↔ used := LockerState.sideInUse_iff
    refine ⟨State.events_absent, fun present unused => ⟨?_, fun occ => ?_, ?_⟩⟩
    · exact State.doorOpened_unused present (mt inUse.mp unused)
    · exact State.doorClosed_unused present (mt inUse.mp unused) occ
    · exact State.relatched_unused (mt inUse.mp unused)

/-! ## The ends of a load and of a clearing (04 R83 to R94) -/

section

variable {s : State} {l : LockerId}

/-- A load whose latch is confirmed, or is confirmed by the event. -/
theorem State.confirmByEvent_loading {i : Slot} {ph : Phase} {d : Door}
    (loading : (s.locker l).state = .loading i ph d) :
    (∃ ph d, ((s.confirmByEvent l).locker l).state = .loading i ph d)
      ∧ (∀ st, (s.confirmByEvent l).enterLocker l st = s.enterLocker l st)
      ∧ (s.confirmByEvent l).entries = s.entries ∧ (s.confirmByEvent l).court = s.court
      ∧ (s.confirmByEvent l).classes = s.classes := by
  cases ph with
  | awaitLatch =>
    have confirmed : s.confirmByEvent l = s.enterLocker l (.loading i .unlatched ⟨some s.now, false, none⟩) := by
      rw [State.confirmByEvent_awaits (by rw [loading]; rfl)]
      simp only [State.confirmLatch, loading]
    rw [confirmed]
    exact ⟨⟨.unlatched, ⟨some s.now, false, none⟩, by simp [Locker.enter]⟩,
      State.enterLocker_again (fun _ => rfl) s l, rfl, rfl, rfl⟩
  | unlatched =>
    rw [State.confirmByEvent_known (by rw [loading]; nofun)]
    exact ⟨⟨_, _, loading⟩, fun _ => rfl, rfl, rfl, rfl⟩

/-- A clearing whose latch is confirmed, or is confirmed by the event. -/
theorem State.confirmByEvent_clearing {st : Option Stored} {ph : Phase} {d : Door}
    (clearing : (s.locker l).state = .clearing st ph d) :
    (∃ ph d, ((s.confirmByEvent l).locker l).state = .clearing st ph d)
      ∧ ∀ goes, (s.confirmByEvent l).enterLocker l goes = s.enterLocker l goes := by
  cases ph with
  | awaitLatch =>
    have confirmed : s.confirmByEvent l = s.enterLocker l (.clearing st .unlatched ⟨some s.now, false, none⟩) := by
      rw [State.confirmByEvent_awaits (by rw [clearing]; rfl)]
      simp only [State.confirmLatch, clearing]
    rw [confirmed]
    exact ⟨⟨.unlatched, ⟨some s.now, false, none⟩, by simp [Locker.enter]⟩,
      State.enterLocker_again (fun _ => rfl) s l⟩
  | unlatched =>
    rw [State.confirmByEvent_known (by rw [clearing]; nofun)]
    exact ⟨⟨_, _, clearing⟩, fun _ => rfl⟩

section

variable {i : Slot} {ph : Phase} {d : Door} {r : Reservation} (loading : (s.locker l).state = .loading i ph d)
  (hr : s.entry i = some r) (stage : r.stage = .loading l)
include loading hr stage

theorem State.loadUndone_eq (goes : LockerState) :
    s.loadUndone l goes = ((s.enterLocker l goes).setEntry i (some { r with stage := .booked })).windowDue i := by
  have bound : s.boundEntry i l = some r := State.boundEntry_some.mpr ⟨hr, by rw [stage]; rfl⟩
  simp only [State.loadUndone, loading, bound]

theorem State.loadUndone_early (goes : LockerState) (early : s.overdue r = false) :
    s.loadUndone l goes = (s.enterLocker l goes).setEntry i (some { r with stage := .booked }) := by
  rw [State.loadUndone_eq loading hr stage]
  exact State.windowDue_early (r := { r with stage := .booked }) (by simp)
    (by simp only [State.overdue_setEntry, State.overdue_enterLocker]; exact early)

theorem State.loadUndone_overdue (goes : LockerState) (late : s.overdue r = true) :
    s.loadUndone l goes =
      ((s.enterLocker l goes).setEntry i none).queueNotice (.expired r.tag .notLoaded none) := by
  rw [State.loadUndone_eq loading hr stage, State.windowDue_booked (r := { r with stage := .booked }) (by simp)
    (by simp only [State.overdue_setEntry, State.overdue_enterLocker]; exact late) rfl, State.setEntry_setEntry]

variable {now : Nat} (court : s.court = some now) {k : FoodClass} (class_ : s.classes.get r.cls = some k)
  {deadline close : Nat} (limit : min 4294967295 (now + r.holdOverride.getD k.holdLimit) = deadline)
  (limited : min r.closes deadline = close)
include court class_ limit limited

theorem State.loadComplete_eq :
    let ready : Reservation := { r with stage := .ready l now, closes := close }
    let u := (s.enterLocker l (.holding i ⟨deadline, 0⟩)).setEntry i (some ready)
    s.loadComplete l = if u.overdue ready then u.expireSpoiled i .window else u.queueNotice (.loaded r.tag l close) := by
  have bound : s.boundEntry i l = some r := State.boundEntry_some.mpr ⟨hr, by rw [stage]; rfl⟩
  subst limited limit
  simp only [State.loadComplete, loading, bound, court, State.classOf, class_]
  rfl

theorem State.loadComplete_ready (early : now < close) :
    s.loadComplete l =
      ((s.enterLocker l (.holding i ⟨deadline, 0⟩)).setEntry i
        (some { r with stage := .ready l now, closes := close })).queueNotice (.loaded r.tag l close) := by
  rw [State.loadComplete_eq loading hr stage court class_ limit limited, if_neg]
  simp only [State.overdue_setEntry, State.overdue_enterLocker, State.overdue_of_court court, not_le]
  exact early

theorem State.loadComplete_overdue (late : close ≤ now) :
    s.loadComplete l =
      (((s.enterLocker l (.spoiled (some ⟨r.tag, .window⟩))).setEntry i none).countExpired).queueNotice
        (.expired r.tag .window (some l)) := by
  rw [State.loadComplete_eq loading hr stage court class_ limit limited, if_pos]
  · rw [State.expireSpoiled_bound (r := { r with stage := .ready l now, closes := close }) (by simp) rfl (by decide)]
    simp only [State.enterLocker_setEntry, State.setEntry_setEntry,
      State.enterLocker_again (a := .holding i ⟨deadline, 0⟩) fun _ => rfl]
  · simp only [State.overdue_setEntry, State.overdue_enterLocker, State.overdue_of_court court]
    exact late

end

end

/-- Settles O41. -/
theorem backDoorEndsALoad : Obligations.BackDoorEndsALoad := by
  refine ⟨fun s l i ph d r hr loading stage => ?load, fun s l st ph d clearing => ?clear⟩
  case load =>
    intro lk put late undone
    have used : (s.locker l).state.sideInUse = some .back := by rw [loading]; rfl
    have door : (s.locker l).state.door = some d := by rw [loading]; rfl
    have stands (o : Occupied) : ((s.setOccupied l o).locker l).state = .loading i ph d := by
      simpa [State.setOccupied] using loading
    have undoes (o : Occupied) : undone o (((s.setOccupied l o).confirmByEvent l).loadUndone l .empty) := by
      obtain ⟨⟨ph', d', state⟩, writes, entries, court, _⟩ := State.confirmByEvent_loading (stands o)
      have entry : ((s.setOccupied l o).confirmByEvent l).entry i = some r := by
        rw [State.entry, entries]; exact hr
      have overdue : ((s.setOccupied l o).confirmByEvent l).overdue r = s.overdue r := by
        rw [State.overdue, court]; rfl
      refine ⟨fun early => ?_, fun isLate => ?_⟩
      · rw [State.loadUndone_early state entry stage .empty
          (overdue.trans (Bool.not_eq_true _ ▸ mt (s.overdue_iff r).mp early)), writes, State.enterLocker_setOccupied]
        rfl
      · rw [State.loadUndone_overdue state entry stage .empty (overdue.trans ((s.overdue_iff r).mpr isLate)), writes,
          State.enterLocker_setOccupied]
        rfl
    have closes (o : Occupied) (occ : Bool) : ((s.setOccupied l o).confirmByEvent l).closing l occ =
        if occ then ((s.setOccupied l o).confirmByEvent l).loadComplete l
        else ((s.setOccupied l o).confirmByEvent l).loadUndone l .empty := by
      obtain ⟨⟨ph', d', state⟩, _⟩ := State.confirmByEvent_loading (stands o)
      simp only [State.closing, state]
    refine ⟨?_, fun inside => ?_, fun past => ?_⟩
    · have relatching : (s.confirmByEvent l).relatching l = (s.confirmByEvent l).loadUndone l .empty := by
        obtain ⟨⟨ph', d', state⟩, _⟩ := State.confirmByEvent_loading loading
        simp only [State.relatching, state]
      rw [State.relatched_used used, relatching]
      have := undoes lk.occupied
      rwa [State.setOccupied_self] at this
    · have masked := State.masked_of door inside
      exact ⟨(State.doorOpened_used used).trans (if_pos masked),
        fun occ => (State.doorClosed_used used occ).trans (if_pos masked)⟩
    · have unmasked : ¬s.masked l = true := by rw [State.masked_past door past]; nofun
      refine ⟨fun awaits => ?_, fun known => ?_, ?_, ?_⟩
      · subst awaits
        rw [State.doorOpened_used used, if_neg unmasked,
          State.confirmByEvent_awaits (by rw [loading]; rfl)]
        simp only [State.confirmLatch, loading]
        exact State.noteOpening_other fun j m e => by simp [Locker.enter]
      · subst known
        rw [State.doorOpened_used used, if_neg unmasked, State.confirmByEvent_known (by rw [loading]; nofun)]
        exact State.noteOpening_other fun j m e => by simp [loading]
      · rw [State.doorClosed_used used, if_neg unmasked]
        have := undoes .no
        rwa [← show _ = ((s.setOccupied l .no).confirmByEvent l).loadUndone l .empty from closes .no false] at this
      · intro k now court class_ deadline close
        obtain ⟨⟨ph', d', state⟩, writes, entries, courts, classes⟩ := State.confirmByEvent_loading (stands .yes)
        have entry : ((s.setOccupied l .yes).confirmByEvent l).entry i = some r := by
          rw [State.entry, entries]; exact hr
        have run : s.doorClosed l .back true = ((s.setOccupied l .yes).confirmByEvent l).loadComplete l := by
          rw [State.doorClosed_used used, if_neg unmasked]
          exact closes .yes true
        refine ⟨fun early => run.trans ?_, fun past => run.trans ?_⟩
        · rw [State.loadComplete_ready state entry stage (courts.trans court) (by rw [classes]; exact class_) rfl rfl
            early, writes, State.enterLocker_setOccupied]
          rfl
        · rw [State.loadComplete_overdue state entry stage (courts.trans court) (by rw [classes]; exact class_) rfl rfl
            past, writes, State.enterLocker_setOccupied]
          rfl
  case clear =>
    intro lk put kept
    have used : (s.locker l).state.sideInUse = some .back := by rw [clearing]; rfl
    have door : (s.locker l).state.door = some d := by rw [clearing]; rfl
    have stands (o : Occupied) : ((s.setOccupied l o).locker l).state = .clearing st ph d := by
      simpa [State.setOccupied] using clearing
    refine ⟨?_, fun inside => ?_, fun past => ?_⟩
    · obtain ⟨⟨ph', d', state⟩, writes⟩ := State.confirmByEvent_clearing clearing
      rw [State.relatched_used used]
      simp only [State.relatching, state, State.respoil, LockerState.stored, writes]
      rfl
    · have masked := State.masked_of door inside
      exact ⟨(State.doorOpened_used used).trans (if_pos masked),
        fun occ => (State.doorClosed_used used occ).trans (if_pos masked)⟩
    · have unmasked : ¬s.masked l = true := by rw [State.masked_past door past]; nofun
      refine ⟨fun awaits => ?_, fun known => ?_, ?_, ?_⟩
      · subst awaits
        rw [State.doorOpened_used used, if_neg unmasked,
          State.confirmByEvent_awaits (by rw [clearing]; rfl)]
        simp only [State.confirmLatch, clearing]
        exact State.noteOpening_other fun j m e => by simp [Locker.enter]
      · subst known
        rw [State.doorOpened_used used, if_neg unmasked, State.confirmByEvent_known (by rw [clearing]; nofun)]
        exact State.noteOpening_other fun j m e => by simp [clearing]
      · obtain ⟨⟨ph', d', state⟩, writes⟩ := State.confirmByEvent_clearing (stands .no)
        rw [State.doorClosed_used used, if_neg unmasked]
        simp only [State.closing, Bool.false_eq_true, if_false, state, State.discard, LockerState.stored, writes,
          State.enterLocker_setOccupied]
        rfl
      · obtain ⟨⟨ph', d', state⟩, writes⟩ := State.confirmByEvent_clearing (stands .yes)
        rw [State.doorClosed_used used, if_neg unmasked]
        simp only [State.closing, if_true, state, State.respoil, LockerState.stored, writes,
          State.enterLocker_setOccupied]
        rfl

end Sys2Proof.Machine
end

section
/-! Codes at the front panels, ticket scans and clearings at the back panels (chapters 3 and 4). -/

-- The declarations are elaborated one after another, which bounds the memory that their checks take at one time.
set_option Elab.async false

namespace Sys2Proof.Machine

open Config

/-! ## The queues and the other records -/

section

variable (s : State)

@[simp] theorem State.setColumn_queueNotice (n : Notice) (c : Col) (v : Column) :
    (s.queueNotice n).setColumn c v = (s.setColumn c v).queueNotice n := by
  unfold State.queueNotice State.setColumn
  split <;> rfl

@[simp] theorem State.setColumn_enqueue (op : Op) (c : Col) (v : Column) :
    (s.enqueue op).setColumn c v = (s.setColumn c v).enqueue op := by
  have same : (s.setColumn c v).hasRoom = s.hasRoom := rfl
  unfold State.enqueue
  rw [same]
  split <;> rfl

@[simp] theorem State.setColumn_setColumn (c : Col) (v w : Column) :
    (s.setColumn c v).setColumn c w = s.setColumn c w := by
  simp [State.setColumn]

@[simp] theorem State.setColumn_countWrong (c : Col) (v : Column) :
    s.countWrong.setColumn c v = (s.setColumn c v).countWrong := rfl

@[simp] theorem State.column_queueNotice (n : Notice) (c : Col) : (s.queueNotice n).column c = s.column c := by
  simp [State.column]

@[simp] theorem State.column_enqueue (op : Op) (c : Col) : (s.enqueue op).column c = s.column c := by
  simp [State.column]

@[simp] theorem State.column_countWrong (c : Col) : s.countWrong.column c = s.column c := rfl

@[simp] theorem State.reachable_enqueue (op : Op) (c : Col) : (s.enqueue op).reachable c = s.reachable c := by
  simp [State.reachable]

end

/-! ## Codes (03 R56 to R63) -/

section

variable {s : State} {c : Col}

theorem State.codeEvent_starting (starting : s.mode = .starting) (digits : Option Nat) :
    s.codeEvent c digits = s.showFront c .notInService := by
  simp only [State.codeEvent, starting]

theorem State.codeEvent_locked (serves : s.mode ≠ .starting) {t : Nat} (locked : (s.column c).lockout = some t)
    (digits : Option Nat) : s.codeEvent c digits = s.showFront c (.locked (max 1 (t - s.court.getD 0))) := by
  cases mode : s.mode with
  | starting => exact absurd mode serves
  | run => simp only [State.codeEvent, mode, locked]
  | drain => simp only [State.codeEvent, mode, locked]

theorem State.codeEvent_looksUp (serves : s.mode ≠ .starting) (free : (s.column c).lockout = none)
    (digits : Option Nat) : s.codeEvent c digits = s.codeLookup c digits := by
  cases mode : s.mode with
  | starting => exact absurd mode serves
  | run => simp only [State.codeEvent, mode, free]
  | drain => simp only [State.codeEvent, mode, free]

theorem State.codeLookup_wrong {digits : Option Nat} (unheld : ∀ i r, s.entry i = some r → digits ≠ some r.code) :
    s.codeLookup c digits = s.wrongCode c := by
  have none : digits.bind s.findCode = none := by
    cases digits with
    | none => rfl
    | some n => exact State.findCode_free fun i r hr same => unheld i r hr (by rw [same])
  simp only [State.codeLookup, none]

theorem State.codeLookup_held (unique : s.UniqueKeys) {i : Slot} {r : Reservation} (hr : s.entry i = some r) :
    s.codeLookup c (some r.code) =
      match r.stage with
      | .booked => s.showFront c .notReady
      | .loading _ => s.showFront c .notReady
      | .ready l t => s.codeReady c i r l t
      | .releasing _ _ _ => s.showFront c .inProgress
      | .opened _ _ _ => s.showFront c .inProgress := by
  have found : (some r.code).bind s.findCode = some i := State.findCode_held unique hr
  simp only [State.codeLookup, found, hr] <;> rfl

theorem State.wrongCode_counts (few : (s.column c).wrong < 4) :
    s.wrongCode c =
      ((s.setColumn c { s.column c with wrong := (s.column c).wrong + 1 }).countWrong).showFront c
        (.wrongCode (4 - (s.column c).wrong)) := by
  have count : min 5 ((s.column c).wrong + 1) = (s.column c).wrong + 1 := by omega
  have left : 5 - ((s.column c).wrong + 1) = 4 - (s.column c).wrong := by omega
  simp only [State.wrongCode, count, left]
  exact if_pos (by omega)

/-- The fifth wrong code locks the panel out (03 R58). -/
theorem State.wrongCode_locks (many : 4 ≤ (s.column c).wrong) {now : Nat} (court : s.court = some now) :
    s.wrongCode c =
      State.lockoutDue
        ((((s.setColumn c { s.column c with wrong := 5, lockout := some (min 4294967295 (now + 60)) }).countWrong).showFront
          c (.locked 60)).queueNotice (.lockout c 60)) c := by
  have count : min 5 ((s.column c).wrong + 1) = 5 := by omega
  simp only [State.wrongCode, count, court]
  simp [State.showFront]
  rfl

theorem State.lockoutDue_early {t now : Nat} (locked : (s.column c).lockout = some t) (court : s.court = some now)
    (early : now < t) : s.lockoutDue c = s := by
  rw [State.lockoutDue_some court locked, if_neg (not_le.mpr early)]

theorem State.wrongCode_locksOut (many : 4 ≤ (s.column c).wrong) {now : Nat} (court : s.court = some now)
    (early : now < 4294967295) :
    s.wrongCode c =
      (((s.setColumn c { s.column c with wrong := 5, lockout := some (min 4294967295 (now + 60)) }).countWrong).showFront
        c (.locked 60)).queueNotice (.lockout c 60) := by
  rw [State.wrongCode_locks many court]
  exact State.lockoutDue_early (t := min 4294967295 (now + 60)) (now := now) (by simp [State.showFront])
    (by simpa [State.showFront] using court) (by omega)

/-- A lockout whose end is the highest court time, already reached, ends at once (01 R8). -/
theorem State.wrongCode_endsAtOnce (many : 4 ≤ (s.column c).wrong) (court : s.court = some 4294967295)
    (free : (s.column c).lockout = none) :
    s.wrongCode c =
      (((s.setColumn c { s.column c with wrong := 0 }).countWrong).showFront c (.locked 60)).queueNotice
        (.lockout c 60) := by
  have due := State.wrongCode_locks many court
  rw [State.lockoutDue_some (t := min 4294967295 (4294967295 + 60)) (now := 4294967295)
    (by simpa [State.showFront] using court) (by simp [State.showFront]), if_pos (by omega)] at due
  simp only [State.showFront, State.setColumn_queueNotice, State.setColumn_enqueue, State.setColumn_countWrong,
    State.setColumn_setColumn, State.column_queueNotice, State.column_enqueue, State.column_countWrong,
    State.column_setColumn, if_true] at due
  rw [due, ← free]
  rfl

section

variable {i : Slot} {r : Reservation} {l : LockerId} {at_ now : Nat} (court : s.court = some now)
include court

theorem State.codeReady_early (early : now < r.opens) :
    s.codeReady c i r l at_ = s.showFront c (.tooEarly (min 999 ((r.opens - now + 59) / 60))) := by
  simp only [State.codeReady, court, Option.getD_some, if_pos early, minutesUntil]

variable (open_ : r.opens ≤ now)
include open_

theorem State.codeReady_elsewhere (elsewhere : lockerCol l ≠ c) :
    s.codeReady c i r l at_ =
      if s.reachable (lockerCol l) then s.showFront c (.goTo (lockerCol l)) else s.showFront c .seeCounter := by
  simp only [State.codeReady, court, Option.getD_some, if_neg (not_lt.mpr open_), if_pos elsewhere]

theorem State.codeReady_here (here : lockerCol l = c) :
    s.codeReady c i r l at_ = if s.doorBusy l then s.showFront c .inProgress else s.startRelease c i r l at_ := by
  simp only [State.codeReady, court, Option.getD_some, if_neg (not_lt.mpr open_), here, ne_eq, not_true_eq_false,
    if_false]

end

theorem State.startRelease_holding {i : Slot} {m : Meal} {l : LockerId} (holding : (s.locker l).state = .holding i m)
    (j : Slot) (r : Reservation) (at_ : Nat) :
    let u := State.showFront
      (State.enqueue
        ((s.setEntry j (some { r with stage := .releasing l at_ none })).enterLocker l (.releasing j m))
        (unlatchOp l .front .collect (some j))) c (.open_ l)
    s.startRelease c j r l at_ =
      { u with
        columns := s.columns.set c { s.column c with wrong := 0 }
        counters := { s.counters with matched := min 4294967295 (s.counters.matched + 1) } } := by
  intro u
  have columns : u.columns = s.columns := by simp [u, State.showFront]
  have counters : u.counters = s.counters := by simp [u, State.showFront]
  have release : s.startRelease c j r l at_ = (u.setColumn c { u.column c with wrong := 0 }).countMatched := by
    simp only [State.startRelease, holding, u]
  rw [release, State.setColumn, State.countMatched, State.column, columns, counters]
  rfl

end

theorem State.doorBusy_iff (s : State) (l : LockerId) : s.doorBusy l = true ↔
    ∃ op ∈ s.ops, op.kind = 0x04#8 ∧ op.dest = .column (lockerCol l) ∧ op.position = some (lockerPos l)
      ∧ (op.origin = .collect ∨ op.origin = .load ∨ op.origin = .clear) := by
  simp [State.doorBusy, Op.isUnlatch, and_assoc, or_assoc]

theorem beBytes_one (n : Nat) : beBytes 1 n = [BitVec.ofNat 8 n] := u8_eq n

theorem beBytes_two (n : Nat) : beBytes 2 n = [BitVec.ofNat 8 (n / 256), BitVec.ofNat 8 n] := by
  simp [beBytes]

theorem unlatchOp_eq (l : LockerId) (side : Side) (origin : Origin) (slot : Option Slot) :
    unlatchOp l side origin slot =
      { tag := 0, dest := .column (lockerCol l), kind := 0x04#8, position := some (lockerPos l)
        side := some side, mode := .untilMet 6 0, cls := .urgent, origin := origin, slot := slot
        inboxRef := none, notBefore := 0, inFlight := false
        body := [BitVec.ofNat 8 ((lockerPos l).val + 1), if side = .front then 0#8 else 1#8] } := by
  cases side <;> simp [unlatchOp, Op.blank, u8_eq, Side.code]

theorem panelOp_eq (c : Col) (side : Side) (m : Message) :
    panelOp c side m =
      { tag := 0, dest := .column c, kind := 0x08#8, position := none, side := some side, mode := .once
        cls := .urgent, origin := .panel, slot := none, inboxRef := none, notBefore := 0, inFlight := false
        body := [if side = .front then 0#8 else 1#8, BitVec.ofNat 8 m.code.1,
          BitVec.ofNat 8 (m.code.2 / 256), BitVec.ofNat 8 m.code.2] } := by
  cases side <;> simp [panelOp, Op.blank, u8_eq, Side.code, beBytes_two]

/-- Settles O42. -/
theorem codesAreTakenAtThePanel : Obligations.CodesAreTakenAtThePanel := by
  refine ⟨fun s c digits => ?code, unlatchOp_eq, panelOp_eq, State.doorBusy_iff, fun l => rfl, fun n => rfl,
    fun n small => Prod.ext rfl (if_pos small), fun n => rfl, rfl, fun n => rfl, fun c => rfl, rfl, rfl, rfl⟩
  intro col show_ shows wrong
  refine ⟨fun starting => State.codeEvent_starting starting digits, fun serves => ⟨fun t now locked court early => ?_,
    fun free unheld => ?wrong, fun i r free unique hr same => ?held⟩⟩
  · have left : max 1 (t - s.court.getD 0) = t - now := by
      rw [court]
      show max 1 (t - now) = t - now
      omega
    show s.codeEvent c digits = _
    rw [State.codeEvent_locked serves locked, left]
    rfl
  case wrong =>
    have counted := (State.codeEvent_looksUp serves free digits).trans (State.codeLookup_wrong unheld)
    exact ⟨fun few => counted.trans (State.wrongCode_counts few),
      fun now many court early => counted.trans (State.wrongCode_locksOut many court early),
      fun many court => counted.trans (State.wrongCode_endsAtOnce many court free)⟩
  case held =>
    have found : s.codeEvent c digits = _ :=
      (State.codeEvent_looksUp serves free digits).trans (by rw [same, State.codeLookup_held unique hr])
    refine ⟨fun waiting => found.trans ?_, fun standing => found.trans ?_, fun l at_ now ready court => ?_⟩
    · rcases waiting with booked | ⟨l, loading⟩
      · rw [booked]; rfl
      · rw [loading]; rfl
    · obtain ⟨l, at_, p, releasing | opened⟩ := standing
      · rw [releasing]; rfl
      · rw [opened]; rfl
    · have decided : s.codeEvent c digits = s.codeReady c i r l at_ := found.trans (by rw [ready])
      refine ⟨fun early => decided.trans (State.codeReady_early court early), fun open_ away near => decided.trans ?_,
        fun open_ away far => decided.trans ?_, fun open_ here busy => decided.trans ?_,
        fun m open_ here idle holding => decided.trans ?_⟩
      · rw [State.codeReady_elsewhere court open_ away, if_pos near]; rfl
      · rw [State.codeReady_elsewhere court open_ away, if_neg (by rw [far]; decide)]; rfl
      · rw [State.codeReady_here court open_ here, if_pos busy]; rfl
      · rw [State.codeReady_here court open_ here, if_neg (by rw [idle]; decide),
          State.startRelease_holding holding]
        rfl

end Sys2Proof.Machine
end

section
/-! Ticket scans and clearings at the back panels (chapter 4). -/

-- The declarations are elaborated one after another, which bounds the memory that their checks take at one time.
set_option Elab.async false

namespace Sys2Proof.Machine

open Config

theorem lockerCol_lockerAt (c : Col) (p : Pos) : lockerCol (lockerAt c p) = c := by
  simp only [lockerCol, lockerAt, Fin.ext_iff]
  omega

theorem lockerPos_lockerAt (c : Col) (p : Pos) : lockerPos (lockerAt c p) = p := by
  simp only [lockerPos, lockerAt, Fin.ext_iff]
  omega

/-- The locker of a column at its own position. -/
theorem lockerAt_lockerPos {c : Col} {l : LockerId} (h : lockerCol l = c) : lockerAt c (lockerPos l) = l := by
  subst h
  exact lockerAt_of_locker l

/-! ## The choice of a locker (04 R79, R80) -/

/-- The candidates of a load that needs a rating. -/
theorem State.candidate_iff (s : State) (rating : Nat) (l : LockerId) : s.candidate rating l = true ↔
    (s.locker l).state = .empty ∧ rating ≤ (s.locker l).rating ∧ s.doorBusy l = false
      ∧ s.reachable (lockerCol l) = true ∧ (s.column (lockerCol l)).walkPending = false := by
  simp [State.candidate, State.workable, and_assoc]

section

variable {s : State} {rating : Nat} {c : Col}

theorem State.chooseIn_some {l : LockerId} (here : lockerCol l = c) (fit : s.candidate rating l = true)
    (lowest : ∀ q, lockerCol q = c → lockerPos q < lockerPos l → s.candidate rating q = false) :
    s.chooseIn rating c = some l := by
  rw [State.chooseIn, allPos, List.find?_eq_some_iff_getElem]
  refine ⟨fit, (lockerPos l).val, by simp, by simpa using lockerAt_lockerPos here, fun j before => ?_⟩
  have small : j < 8 := by omega
  have other := lowest (lockerAt c ⟨j, small⟩) (lockerCol_lockerAt c _) (by
    rw [lockerPos_lockerAt]
    exact before)
  simpa using other

theorem State.chooseIn_none (unfit : ∀ l, lockerCol l = c → s.candidate rating l = false) :
    s.chooseIn rating c = none := by
  rw [State.chooseIn, List.find?_eq_none]
  intro l hl
  obtain ⟨p, _, rfl⟩ := List.mem_map.mp hl
  simp [unfit _ (lockerCol_lockerAt c p)]

theorem State.chooseIn_isSome {l : LockerId} (here : lockerCol l = c) (fit : s.candidate rating l = true) :
    (s.chooseIn rating c).isSome = true := by
  rw [State.chooseIn, List.find?_isSome]
  refine ⟨l, List.mem_map.mpr ⟨lockerPos l, List.mem_finRange _, lockerAt_lockerPos here⟩, fit⟩

end

/-! ## Scans (04 R76 to R81) -/

section

variable {s : State} {c : Col} {tag : Nat}

theorem State.scanLookup_unknown (unheld : ∀ i r, s.entry i = some r → r.tag ≠ tag) :
    s.scanLookup c tag = s.showBack c .unknownTicket := by
  simp only [State.scanLookup, State.findTag_free unheld]

theorem State.scanLookup_held (unique : s.UniqueKeys) {i : Slot} {r : Reservation} (hr : s.entry i = some r) :
    s.scanLookup c r.tag =
      match r.stage with
      | .booked => s.allocate c i r
      | .loading l => if lockerCol l = c then s.showBack c (.load l) else s.showBack c .inProgress
      | .ready l _ => s.showBack c (.alreadyLoaded l)
      | .releasing l _ _ => s.showBack c (.alreadyLoaded l)
      | .opened l _ _ => s.showBack c (.alreadyLoaded l) := by
  simp only [State.scanLookup, State.findTag_held unique hr, hr] <;> rfl

variable {i : Slot} {r : Reservation} {k : FoodClass} (class_ : s.classes.get r.cls = some k)
include class_

theorem State.allocate_binds {l : LockerId} (chosen : s.chooseIn k.rating c = some l)
    (near : s.reachable c = true) :
    s.allocate c i r =
      State.enqueue
        (State.enqueue
          ((s.setEntry i (some { r with stage := .loading l })).setLocker l
            { s.locker l with
              state := .loading i .awaitLatch ⟨none, false, none⟩, demand := k.units, refusals := 0 })
          (unlatchOp l .back .load (some i)))
        (panelOp c .back (.load l)) := by
  simp only [State.allocate, State.classOf, class_, Option.getD_some, chosen, State.bindLoad, State.showBack,
    State.showIfReachable]
  refine (if_pos ?_).trans rfl
  rw [State.reachable_enqueue]
  exact near

theorem State.allocate_redirects (none : s.chooseIn k.rating c = none) {before after : List Col} {b : Col}
    (order : othersByDistance c = before ++ b :: after) (unfit : ∀ a ∈ before, s.chooseIn k.rating a = .none)
    (fit : (s.chooseIn k.rating b).isSome = true) :
    s.allocate c i r = (s.showBack c (.goTo b)).queueNotice (.loadRefused r.tag c (some b)) := by
  have first : (othersByDistance c).find? (fun k' => (s.chooseIn k.rating k').isSome) = some b := by
    rw [order, List.find?_append, List.find?_eq_none.mpr fun a ha => by simp [unfit a ha], 
      List.find?_cons_of_pos (p := fun k' => (s.chooseIn k.rating k').isSome) fit]
    rfl
  simp only [State.allocate, State.classOf, class_, Option.getD_some, none, first]

theorem State.allocate_refuses (unfit : ∀ a, s.chooseIn k.rating a = none) :
    s.allocate c i r = (s.showBack c .noLocker).queueNotice (.loadRefused r.tag c none) := by
  have no : (othersByDistance c).find? (fun k' => (s.chooseIn k.rating k').isSome) = none :=
    List.find?_eq_none.mpr fun a _ => by simp [unfit a]
  simp only [State.allocate, State.classOf, class_, Option.getD_some, unfit c, no]

end

theorem mem_othersByDistance : ∀ c k : Col, k ∈ othersByDistance c ↔ k ≠ c := by decide

theorem othersByDistance_pairwise : ∀ c : Col, (othersByDistance c).Pairwise fun a b =>
    max c.val a.val - min c.val a.val < max c.val b.val - min c.val b.val
      ∨ max c.val a.val - min c.val a.val = max c.val b.val - min c.val b.val ∧ a < b := by decide

/-! ## Clearings (04 R90, R91) -/

theorem Locker.clearable_iff (lk : Locker) : lk.clearable = true ↔
    (∃ st, lk.state = .spoiled st) ∨ ∃ f st, lk.state = .blocked f st ∧ f ≠ .latch ∧ lk.occupied ≠ .no := by
  cases state : lk.state <;> simp [Locker.clearable, state]

section

variable {s : State} {c : Col}

theorem State.backClear_position {l : LockerId} (here : lockerCol l = c) :
    s.backClear c ((lockerPos l).val + 1) =
      if s.workable c && !s.doorBusy l && (s.locker l).clearable then s.startClearing c l
      else s.showBack c .clearRefused := by
  have position : positionNumber ((lockerPos l).val + 1) = some (lockerPos l) := by
    simp [positionNumber]
  simp only [State.backClear, position, lockerAt_lockerPos here]

theorem State.mayClear_iff (l : LockerId) : (s.workable c && !s.doorBusy l && (s.locker l).clearable) = true ↔
    s.reachable c = true ∧ (s.column c).walkPending = false ∧ s.doorBusy l = false
      ∧ ((∃ st, (s.locker l).state = .spoiled st)
        ∨ ∃ f st, (s.locker l).state = .blocked f st ∧ f ≠ .latch ∧ (s.locker l).occupied ≠ .no) := by
  simp only [Bool.and_eq_true, Locker.clearable_iff, State.workable, Bool.not_eq_true', and_assoc]

end

/-- Settles O43. -/
theorem backScansAllocate : Obligations.BackScansAllocate := by
  refine ⟨fun s c tag => ?scan, fun c => ⟨mem_othersByDistance c, othersByDistance_pairwise c⟩,
    fun s c n => ?clear, fun l => ⟨rfl, rfl, rfl, rfl⟩, rfl, rfl, rfl, rfl⟩
  case scan =>
    intro shows answers
    refine ⟨fun starting => ?_, fun drain => ?_, fun run unheld => ?_, fun i r run unique hr same => ?_⟩
    · show s.backScan c tag = _
      simp only [State.backScan, starting]
      rfl
    · show s.backScan c tag = _
      simp only [State.backScan, drain]
      rfl
    · show s.backScan c tag = _
      simp only [State.backScan, run, State.scanLookup_unknown unheld]
      rfl
    · subst same
      have served : s.backScan c r.tag = s.scanLookup c r.tag := by simp only [State.backScan, run]
      have scanned := served.trans (State.scanLookup_held unique hr)
      refine ⟨fun l loading => ⟨fun here => scanned.trans ?_, fun away => scanned.trans ?_⟩,
        fun l at_ p held => scanned.trans ?_, fun k booked class_ => ?_⟩
      · rw [loading]; exact if_pos here
      · rw [loading]; exact if_neg away
      · rcases held with stage | stage | stage <;> rw [stage] <;> rfl
      · have allocated : s.backScan c r.tag = s.allocate c i r := scanned.trans (by rw [booked])
        intro fit
        have candidate (l : LockerId) : s.candidate k.rating l = true ↔ fit l := s.candidate_iff k.rating l
        have unfit {a : Col} (no : ∀ l, lockerCol l = a → ¬fit l) : s.chooseIn k.rating a = none :=
          State.chooseIn_none fun l hl => Bool.eq_false_iff.mpr (mt (candidate l).mp (no l hl))
        refine ⟨fun l here isFit lowest => allocated.trans ?_,
          fun before b after none order others first => allocated.trans ?_, fun none => allocated.trans ?_⟩
        · have ⟨_, _, _, near, _⟩ := isFit
          rw [State.allocate_binds class_ (State.chooseIn_some here ((candidate l).mpr isFit) fun q hq below =>
            Bool.eq_false_iff.mpr (mt (candidate q).mp (lowest q hq below))) (here ▸ near)]
          rfl
        · obtain ⟨l, hl, isFit⟩ := first
          exact State.allocate_redirects class_ (unfit none) order (fun a ha => unfit (others a ha))
            (State.chooseIn_isSome hl ((candidate l).mpr isFit))
        · exact State.allocate_refuses class_ fun a => unfit fun l _ => none l
  case clear =>
    intro refused
    refine ⟨fun bad => ?_, fun l here named => ?_⟩
    · have none : positionNumber n = none := by
        unfold positionNumber
        split
        · omega
        · rfl
      simp only [State.backClear, none]
      rfl
    · subst named
      intro lk may
      have mayClear := State.mayClear_iff (s := s) (c := c) l
      refine ⟨fun no => ?_, fun st can stored => ?_⟩
      · rw [State.backClear_position here, if_neg (mt mayClear.mp no)]
        rfl
      · have ⟨near, _⟩ := can
        have kept : (s.locker l).state.stored = st := by
          rcases stored with spoiled | ⟨f, blocked⟩
          · rw [show (s.locker l).state = _ from spoiled]; rfl
          · rw [show (s.locker l).state = _ from blocked]; rfl
        rw [State.backClear_position here, if_pos (mayClear.mpr can)]
        simp only [State.startClearing, kept, State.showBack, State.showIfReachable]
        refine (if_pos ?_).trans rfl
        rw [State.reachable_enqueue]
        exact near

end Sys2Proof.Machine
end

section
/-! CLASS-SET, COLUMN-SET and the readings of a HEAT-SET reply (chapter 5). -/

-- The declarations are elaborated one after another, which bounds the memory that their checks take at one time.
set_option Elab.async false

namespace Sys2Proof.Machine

open Config

/-! ## Temperatures as two bytes (07 Table 7-9) -/

theorem intOf16_pair (hi lo : Byte) : intOf16 [hi, lo] = (hi ++ lo : BitVec 16).toInt := by
  rw [intOf16, beNat_pair]
  simp

theorem beInt16_eq (v : Int) : beInt16 v = beBytes 2 (v % 65536).toNat := by
  rw [beInt16, BitVec.toNat_ofInt]
  rfl

/-! ## CLASS-SET (05 R98) -/

/-- The fields of a CLASS-SET body of 12 bytes. -/
def classRequest (body : List Byte) : ClassSetReq :=
  ⟨natAt body 0 1, natAt body 1 1,
    ⟨natAt body 2 1, intOf16 (fieldAt body 3 2), intOf16 (fieldAt body 5 2), natAt body 7 2, natAt body 9 2,
      natAt body 11 1⟩⟩

theorem classSetReq_of_length {body : List Byte} (length : body.length = 12) :
    classSetReq body = some (classRequest body) := if_pos length

section

variable {s : State} {body : List Byte}

theorem State.classSet_bad
    (bad : body.length ≠ 12 ∨ 4 ≤ natAt body 0 1 ∨ 1 < natAt body 1 1
      ∨ natAt body 1 1 = 1 ∧ ¬(classRequest body).values.inRange = true) :
    s.classSet body = s.answer 0x48#8 .badField [] := by
  by_cases length : body.length = 12
  · simp only [State.classSet, classSetReq_of_length length]
    rcases bad with short | high | unmarked | ⟨enabled, outside⟩
    · exact absurd length short
    · simp only [show classNumber (classRequest body).cls = none from classNumber_none.mpr high]
    · have none : markOf (classRequest body).enabled = .none := markOf_none unmarked
      simp only [none]
      cases classNumber (classRequest body).cls <;> rfl
    · have marked : markOf (classRequest body).enabled = some true := by
        rw [show (classRequest body).enabled = 1 from enabled]; rfl
      simp only [marked]
      cases classNumber (classRequest body).cls with
      | none => rfl
      | some k => exact if_pos (by simpa using outside)
  · simp only [State.classSet, classSetReq, if_neg length]

variable (length : body.length = 12) {k : ClassId} (named : natAt body 0 1 = k.val)
include length named

/-- A CLASS-SET of good fields, by its enabled mark. -/
theorem State.classSet_good {enabled : Bool} (marked : markOf (natAt body 1 1) = some enabled)
    (inside : enabled = true → (classRequest body).values.inRange = true) :
    s.classSet body =
      if (s.lookup fun r => r.cls == k).isSome then s.answer 0x48#8 .inUse []
      else
        let rec_ := if enabled then some (classRequest body).values else none
        State.answer { s with classes := s.classes.set k rec_ } 0x48#8 .ok (classReport rec_) := by
  have number : classNumber (classRequest body).cls = some k := classNumber_some.mpr named
  have mark : markOf (classRequest body).enabled = some enabled := marked
  simp only [State.classSet, classSetReq_of_length length, number, mark]
  refine if_neg ?_
  cases enabled with
  | false => simp
  | true => simp [inside rfl]

end

theorem State.inUse_iff (s : State) (k : ClassId) :
    (s.lookup fun r => r.cls == k).isSome = true ↔ ∃ i r, s.entry i = some r ∧ r.cls = k := by
  rw [State.lookup_isSome]
  simp only [beq_iff_eq]

/-! ## COLUMN-SET (05 R100) -/

section

variable {s : State} {body : List Byte}

theorem State.columnSet_bad
    (bad : body.length ≠ 2 ∨ natAt body 0 1 = 0 ∨ 8 < natAt body 0 1 ∨ natAt body 1 1 < 3 ∨ 24 < natAt body 1 1) :
    s.columnSet body = s.answer 0x49#8 .badField [] := by
  by_cases length : body.length = 2
  · simp only [State.columnSet, columnSetReq, if_pos length]
    cases number : columnNumber (natAt body 0 1) with
    | none => rfl
    | some c =>
      have named : 1 ≤ natAt body 0 1 ∧ natAt body 0 1 ≤ 8 := by
        unfold columnNumber at number
        split at number
        · assumption
        · cases number
      exact if_pos (by omega)
  · simp only [State.columnSet, columnSetReq, if_neg length]

theorem State.columnSet_good (length : body.length = 2) {c : Col} (named : natAt body 0 1 = c.val + 1)
    (low : 3 ≤ natAt body 1 1) (high : natAt body 1 1 ≤ 24) :
    s.columnSet body =
      (s.setColumn c { s.column c with pendingBudget := some (natAt body 1 1) }).answer 0x49#8 .ok
        (u8 (s.column c).budget ++ u8 (natAt body 1 1)) := by
  have number : columnNumber (natAt body 0 1) = some c := by simp [named, columnNumber]
  simp only [State.columnSet, columnSetReq, if_pos length, number]
  exact if_neg (by omega)

end

/-- Settles O44. -/
theorem classesAndBudgetsAreSet : Obligations.ClassesAndBudgetsAreSet := by
  refine ⟨intOf16_pair, beInt16_eq, fun s body rest head => ?classes, fun s body rest head => ?budgets⟩
  case classes =>
    let u : State := { s with inbox := rest }
    have run : exec .classSet s = .next (State.transmit (u.classSet body)) := exec_classSet head
    intro refuse enabled q inside
    have range : (classRequest body).values.inRange = true ↔ inside := decide_eq_true_iff
    refine ⟨fun bad => run.trans ?_, fun k length named good => ?_⟩
    · rw [State.classSet_bad (s := u)]
      · rfl
      · rw [range]
        exact bad
    · have marked : markOf (natAt body 1 1) = some (decide (enabled = 1)) :=
        markOf_le (show enabled ≤ 1 by omega)
      have decided := run.trans (by
        rw [State.classSet_good (s := u) length named marked fun on =>
          range.mpr (good.resolve_left (by have := of_decide_eq_true on; omega)).2])
      refine ⟨fun used => decided.trans ?_, fun free => ?_⟩
      · rw [if_pos ((State.inUse_iff u k).mpr used)]
        rfl
      · have written := decided.trans (by
          rw [if_neg (mt (State.inUse_iff u k).mp fun ⟨i, r, hr, same⟩ => free i r hr same)])
        refine ⟨fun off => written.trans ?_, fun on => written.trans ?_⟩
        · have no : decide (enabled = 1) = false := by simp [off]
          rw [no]
          rfl
        · have yes : decide (enabled = 1) = true := by simp [on]
          rw [yes]
          rfl
  case budgets =>
    let u : State := { s with inbox := rest }
    have run : exec .columnSet s = .next (State.transmit (u.columnSet body)) := exec_columnSet head
    intro n budget
    refine ⟨fun bad => run.trans (by rw [State.columnSet_bad (s := u) bad]; rfl),
      fun c length named low high => run.trans ?_⟩
    rw [State.columnSet_good (s := u) length named low high]
    rfl

/-! ## Readings (05 R108 to R114) -/

section

variable {s : State} {l : LockerId} {c : Col}

@[simp] theorem State.locker_setTemp (t : Int) : (s.setTemp l t).locker l = { s.locker l with lastTemp := some t } := by
  simp [State.setTemp]

theorem ColState.isSettling_iff (st : ColState) : st.isSettling = true ↔ ∃ u, st = .settling u := by
  cases st <;> simp [ColState.isSettling]

theorem State.takeReading_absent (absent : (s.locker l).state = .absent) (reading : Option Int) :
    s.takeReading c l reading = s := if_pos absent

section

variable (present : (s.locker l).state ≠ .absent)
include present

theorem State.takeReading_faulty : s.takeReading c l none =
    if (s.column c).state.isSettling then s else s.takeFault l .sensor := if_neg present

theorem State.takeReading_good (t : Int) : s.takeReading c l (some t) =
    if (s.column c).state.isSettling then s.setTemp l t else (s.setTemp l t).judgeReading l t := if_neg present

end

theorem State.judgeReading_blocked {f : LockerFault} {st : Option Stored}
    (blocked : (s.locker l).state = .blocked f st) (t : Int) : s.judgeReading l t = s := by
  simp only [State.judgeReading, blocked]
  rfl

theorem State.judgeReading_open (open_ : ∀ f st, (s.locker l).state ≠ .blocked f st) (t : Int) :
    s.judgeReading l t =
      if s.overheatLimit l < t then s.takeFault l .overheat else s.judgeCold l t := by
  refine if_neg ?_
  cases state : (s.locker l).state with
  | blocked f st => exact absurd state (open_ f st)
  | _ => nofun

theorem State.overheatLimit_unbound (unbound : (s.locker l).state.slot = none) : s.overheatLimit l = 1100 := by
  simp only [State.overheatLimit, unbound]

theorem State.overheatLimit_bound {i : Slot} (bound : (s.locker l).state.slot = some i) {r : Reservation}
    (hr : s.entry i = some r) {k : FoodClass} (class_ : s.classes.get r.cls = some k) :
    s.overheatLimit l = k.target + 200 := by
  simp only [State.overheatLimit, bound, hr, State.classOf, class_, Option.getD_some]

theorem State.judgeCold_unmealed (none : (s.locker l).state.meal = none) (t : Int) : s.judgeCold l t = s := by
  simp only [State.judgeCold, none]

section

variable {i : Slot} {m : Meal} (meal : (s.locker l).state.meal = some (i, m)) {r : Reservation}
  (hr : s.entry i = some r) {k : FoodClass} (class_ : s.classes.get r.cls = some k)
include meal hr class_

theorem State.judgeCold_meal (t : Int) : s.judgeCold l t = if t < k.minimum then s.addCold l else s := by
  simp only [State.judgeCold, meal, hr, State.classOf, class_, Option.getD_some]

theorem State.addCold_meal : s.addCold l =
    if k.coldAllowance < m.cold + 10 then
      (s.enterLocker l ((s.locker l).state.withMeal ⟨m.deadline, m.cold + 10⟩)).bringTimed i .cold
    else s.enterLocker l ((s.locker l).state.withMeal ⟨m.deadline, m.cold + 10⟩) := by
  simp only [State.addCold, meal, hr, State.classOf, class_, Option.getD_some]

end

end

theorem State.enterLocker_setTemp (s : State) (l : LockerId) (t : Int) (st : LockerState) :
    (s.setTemp l t).enterLocker l st = s.setLocker l (Locker.enter { s.locker l with lastTemp := some t } st) := by
  rw [State.enterLocker, State.locker_setTemp]
  simp [State.setTemp, State.setLocker]

theorem fieldAt_byte {bs : List Byte} {off : Nat} {b : Byte} (at_ : bs[off]? = some b) : fieldAt bs off 1 = [b] := by
  obtain ⟨inside, rfl⟩ := List.getElem?_eq_some_iff.mp at_
  rw [fieldAt, List.drop_eq_getElem_cons inside]
  rfl

theorem fieldAt_pair {bs : List Byte} {off : Nat} {a b : Byte} (first : bs[off]? = some a)
    (second : bs[off + 1]? = some b) : fieldAt bs off 2 = [a, b] := by
  obtain ⟨inside, rfl⟩ := List.getElem?_eq_some_iff.mp first
  obtain ⟨inside', rfl⟩ := List.getElem?_eq_some_iff.mp second
  rw [fieldAt, List.drop_eq_getElem_cons inside, List.drop_eq_getElem_cons inside']
  rfl

theorem readingOf_eq {body : List Byte} {p : Pos} {mark hi lo : Byte} (first : body[1 + 3 * p.val]? = some mark)
    (second : body[2 + 3 * p.val]? = some hi) (third : body[3 + 3 * p.val]? = some lo) :
    let v : Int := (hi ++ lo : BitVec 16).toInt
    readingOf body p = if mark = 1#8 ∧ -200 ≤ v ∧ v ≤ 1300 then some v else none := by
  have value : intOf16 (fieldAt body (2 + 3 * p.val) 2) = (hi ++ lo : BitVec 16).toInt := by
    rw [fieldAt_pair second (by rw [show 2 + 3 * p.val + 1 = 3 + 3 * p.val by omega]; exact third), intOf16_pair]
  have marked : natAt body (1 + 3 * p.val) 1 = 1 ↔ mark = 1#8 := by
    rw [natAt, fieldAt_byte first, beNat_singleton]
    exact ⟨fun h => BitVec.eq_of_toNat_eq h, fun h => by rw [h]; rfl⟩
  simp only [readingOf, value, marked, inProbeRange, decide_eq_true_eq]

/-- Settles O46. -/
theorem readingsJudgeTheHeldMeal : Obligations.ReadingsJudgeTheHeldMeal := by
  refine ⟨fun s l => ?readings, fun _ _ _ _ => ⟨rfl, rfl, rfl⟩, fun _ _ _ _ _ => readingOf_eq⟩
  intro c lk put hot settles judged
  have settling : (s.column c).state.isSettling = true ↔ settles := ColState.isSettling_iff _
  have good (is : judged) (t : Int) : s.takeReading c l (some t) = (s.setTemp l t).judgeReading l t :=
    (State.takeReading_good is.1 t).trans (if_neg (mt settling.mp is.2))
  have state (t : Int) : ((s.setTemp l t).locker l).state = lk.state := by rw [State.locker_setTemp]
  refine ⟨State.takeReading_absent, fun present isSettling => ⟨?_, fun t => ?_⟩, fun is => ?_, fun f st t is blocked => ?_,
    fun t is unbound open_ => ?_, fun i r k t is bound hr class_ => ?_⟩
  · rw [State.takeReading_faulty present, if_pos (settling.mpr isSettling)]
  · rw [State.takeReading_good present, if_pos (settling.mpr isSettling)]
    rfl
  · rw [State.takeReading_faulty is.1, if_neg (mt settling.mp is.2)]
  · rw [good is, State.judgeReading_blocked ((state t).trans blocked)]
    rfl
  · have none : lk.state.meal = none := by
      cases meal : lk.state.meal with
      | none => rfl
      | some x => rw [LockerState.slot_of_meal (i := x.1) (m := x.2) meal] at unbound; cases unbound
    rw [good is, State.judgeReading_open (fun f st => state t ▸ open_ f st),
      State.overheatLimit_unbound ((congrArg LockerState.slot (state t)).trans unbound),
      State.judgeCold_unmealed ((congrArg LockerState.meal (state t)).trans none)]
    rfl
  · intro cold
    have open_ : ∀ f st, ((s.setTemp l t).locker l).state ≠ .blocked f st := fun f st blocked => by
      rw [← state t, blocked] at bound
      cases bound
    have judges : s.takeReading c l (some t) = _ := (good is t).trans (State.judgeReading_open open_ t)
    have limit : (s.setTemp l t).overheatLimit l = k.target + 200 :=
      State.overheatLimit_bound ((congrArg LockerState.slot (state t)).trans bound) hr class_
    rw [limit] at judges
    refine ⟨fun over_ => judges.trans (if_pos over_), fun cool warm => ?_, fun m cool low meal => ?_⟩
    · refine (judges.trans (if_neg (not_lt.mpr cool))).trans ?_
      rcases warm with warm | ⟨ph, d, loading⟩
      · cases meal : lk.state.meal with
        | none => exact State.judgeCold_unmealed ((congrArg LockerState.meal (state t)).trans meal) t
        | some x =>
          have same := Option.some.inj ((LockerState.slot_of_meal (i := x.1) (m := x.2) meal).symm.trans bound)
          rw [State.judgeCold_meal (i := x.1) (m := x.2) ((congrArg LockerState.meal (state t)).trans meal)
            (same.symm ▸ hr) class_, if_neg (not_lt.mpr warm)]
          rfl
      · exact State.judgeCold_unmealed (by rw [state, loading]; rfl) t
    · have held : ((s.setTemp l t).locker l).state.meal = some (i, m) :=
        (congrArg LockerState.meal (state t)).trans meal
      have gathers : s.takeReading c l (some t) = (s.setTemp l t).addCold l := by
        rw [judges, if_neg (not_lt.mpr cool), State.judgeCold_meal held hr class_, if_pos low]
      intro more
      refine ⟨fun allowed => gathers.trans ?_, fun exceeded => ?_⟩
      · rw [State.addCold_meal held hr class_, if_neg (not_lt.mpr allowed), State.enterLocker_setTemp, state]
        cases lk_state : lk.state <;> rw [lk_state] at meal <;> cases meal <;> rfl
      · have brings := gathers.trans (by
          rw [State.addCold_meal held hr class_, if_pos exceeded, state])
        refine ⟨fun at_ holding ready => ?_, fun at_ p releasing stage => ?_, fun d at_ p opened stage => ?_⟩
        · rw [brings, State.bringTimed_ready (r := r) (l := l) (by exact hr) ready (by decide), holding]
          simp only [LockerState.withMeal, State.enterLocker_again (a := .holding i ⟨m.deadline, m.cold + 10⟩) fun _ => rfl]
          rw [State.enterLocker_setTemp]
          rfl
        · rw [brings, State.bringTimed_releasing (r := r) (l := l) (by exact hr) stage, releasing,
            State.enterLocker_setTemp]
          rfl
        · rw [brings, State.bringTimed_opened (r := r) (l := l) (by exact hr) stage, opened,
            State.enterLocker_setTemp]
          rfl

end Sys2Proof.Machine
end

section
/-! ROLL-CALL and the poll timer (10 R180, R187, R191). -/

-- The declarations are elaborated one after another, which bounds the memory that their checks take at one time.
set_option Elab.async false

namespace Sys2Proof.Machine

open Config

theorem allCols_eq : allCols = [0, 1, 2, 3, 4, 5, 6, 7] := by decide

theorem State.hasRoom_eq_false {s : State} : s.hasRoom = false ↔ s.freeEntries = 0 := by
  simp [State.hasRoom]

/-! ## ROLL-CALL (10 R191) -/

theorem State.markWalks_outside (s : State) (cs : List Col) :
    s.markWalks cs = { s with columns := (s.markWalks cs).columns } := by
  induction cs generalizing s with
  | nil => rfl
  | cons c cs ih =>
    have step : s.markWalks (c :: cs) = (s.setColumn c { s.column c with walkPending := true }).markWalks cs := rfl
    rw [step, ih]
    rfl

theorem State.column_markWalks (s : State) (cs : List Col) (k : Col) : (s.markWalks cs).column k =
    if k ∈ cs then { s.column k with walkPending := true } else s.column k := by
  induction cs generalizing s with
  | nil => rfl
  | cons c cs ih =>
    have step : s.markWalks (c :: cs) = (s.setColumn c { s.column c with walkPending := true }).markWalks cs := rfl
    rw [step, ih, State.column_setColumn]
    by_cases here : c = k
    · subst here
      simp
    · simp [here, Ne.symm here]

theorem rollReq_none {body : List Byte} (bad : body.length ≠ 1 ∨ 8 < natAt body 0 1) :
    (numberReq 1 body).bind rollList = none := by
  by_cases length : body.length = 1
  · have high := bad.resolve_left (not_not.mpr length)
    have none : columnNumber (natAt body 0 1) = .none := by
      unfold columnNumber
      split
      · omega
      · rfl
    rw [numberReq_of_length length, Option.bind_some, rollList, if_neg (by omega), none]
    rfl
  · rw [numberReq_length length]; rfl

theorem rollReq_some {body : List Byte} (length : body.length = 1) {first : Col} {others : List Col}
    (named : natAt body 0 1 = 0 ∧ first = 0 ∧ others = [1, 2, 3, 4, 5, 6, 7]
      ∨ natAt body 0 1 = first.val + 1 ∧ others = []) :
    (numberReq 1 body).bind rollList = some (first, others) := by
  rw [numberReq_of_length length, Option.bind_some, rollList]
  rcases named with ⟨all, rfl, rfl⟩ | ⟨one, rfl⟩
  · rw [if_pos all]
  · rw [one, if_neg (by omega)]
    simp [columnNumber]

/-- A ROLL-CALL has to wait: a walk is queued or owed, or the queue is full. -/
def State.rollBusy (s : State) : Prop :=
  (∃ op ∈ s.ops, op.mode.isWalk = true) ∨ (∃ c, (s.column c).walkOwed = true) ∨ s.freeEntries = 0

section

variable {s : State} {body : List Byte} {first : Col} {others : List Col}
  (listed : (numberReq 1 body).bind rollList = some (first, others))
include listed

theorem State.rollCall_busy (busy : s.rollBusy) : s.rollCall body = s.answer 0x4B#8 .busy [] := by
  simp only [State.rollCall, listed]
  split
  · rfl
  · next free =>
    refine if_pos ?_
    have full : s.freeEntries = 0 := by
      rcases busy with walk | owed | full
      · exact absurd (by simp [walk]) free
      · exact absurd (by simp [allCols, owed]) free
      · exact full
    simp [State.hasRoom_eq_false.mpr full]

theorem State.rollCall_accepted (idle : ¬s.rollBusy) :
    s.rollCall body = ((s.enqueue (walkOp first others .rollCall)).markWalks (first :: others)).answer 0x4B#8
      .accepted [] := by
  simp only [State.rollBusy, not_or] at idle
  obtain ⟨noWalk, noOwed, room⟩ := idle
  simp only [State.rollCall, listed]
  rw [if_neg, if_neg]
  · simpa [State.hasRoom_eq_false] using room
  · simp only [Bool.or_eq_true, List.any_eq_true, allCols, List.mem_finRange, true_and, not_or]
    exact ⟨noWalk, noOwed⟩

end

/-- Settles O47. -/
theorem rollCallQueuesAWalk : Obligations.RollCallQueuesAWalk := by
  intro s body rest head refuse busy
  let u : State := { s with inbox := rest }
  have run : exec .rollCall s = .next (State.transmit (u.rollCall body)) := exec_rollCall head
  refine ⟨fun bad => run.trans ?_, fun length low isBusy => run.trans ?_, fun first others length idle named => ?_⟩
  · simp only [State.rollCall, rollReq_none bad]
    rfl
  · have listed : ∃ first others, (numberReq 1 body).bind rollList = some (first, others) := by
      by_cases all : natAt body 0 1 = 0
      · exact ⟨0, _, rollReq_some length (.inl ⟨all, rfl, rfl⟩)⟩
      · exact ⟨⟨natAt body 0 1 - 1, by omega⟩, [], rollReq_some length (.inr ⟨by simp; omega, rfl⟩)⟩
    obtain ⟨first, others, listed⟩ := listed
    rw [State.rollCall_busy (s := u) listed isBusy]
    rfl
  · have accepted := run.trans (by rw [State.rollCall_accepted (s := u) (rollReq_some length named) idle])
    have room : 0 < u.freeEntries := Nat.pos_of_ne_zero fun full => idle (.inr (.inr full))
    refine ⟨_, accepted, ?_, ?_, fun c => ?_⟩
    · rw [State.markWalks_outside, State.enqueue_room room]
      rfl
    · rw [State.markWalks_outside, State.enqueue_room room]
      rfl
    · have marked : (((u.enqueue (walkOp first others .rollCall)).markWalks (first :: others)).answer 0x4B#8 .accepted
          []).column c = ((u.enqueue (walkOp first others .rollCall)).markWalks (first :: others)).column c := by
        simp [State.column]
      rw [marked, State.column_markWalks, State.column_enqueue]
      simp only [List.mem_cons]
      rfl

/-! ## The poll timer (10 R180, R187) -/

theorem State.pollOutstanding_iff (s : State) : s.pollOutstanding = true ↔ ∃ op ∈ s.ops, op.tag = 0 := by
  simp [State.pollOutstanding]

theorem State.queuePoll_eq (s : State) : s.queuePoll =
    { s with ops := if ∃ op ∈ s.ops, op.tag = 0 then s.ops else s.ops ++ [pollOp s.now] } := by
  unfold State.queuePoll
  by_cases held : ∃ op ∈ s.ops, op.tag = 0
  · rw [if_pos (s.pollOutstanding_iff.mpr held), if_pos held]
  · rw [if_neg (mt s.pollOutstanding_iff.mp held), if_neg held]

/-- One owed walk is queued while there is a free entry. -/
def State.queueOwedAt (v : State) (c : Col) : State :=
  if (v.column c).walkOwed && v.hasRoom then
    (v.setColumn c { v.column c with walkOwed := false }).enqueue (walkOp c [] .returning)
  else v

theorem State.queueOwed_eq (s : State) : s.queueOwed = allCols.foldl State.queueOwedAt s := rfl

theorem State.queueOwedAt_due {v : State} {c : Col} (owed : (v.column c).walkOwed = true) (room : 0 < v.freeEntries) :
    v.queueOwedAt c =
      { v with
        columns := v.columns.set c { v.column c with walkOwed := false }
        ops := v.ops ++ [{ walkOp c [] .returning with
                           tag := v.lowestTag, notBefore := v.now, inFlight := false }] } := by
  have queued : (v.setColumn c { v.column c with walkOwed := false }).enqueue (walkOp c [] .returning) = _ :=
    State.enqueue_room (s := v.setColumn c { v.column c with walkOwed := false }) room _
  unfold State.queueOwedAt
  rw [if_pos (by simp [owed, State.hasRoom, room]), queued]
  rfl

theorem State.queueOwedAt_none {v : State} {c : Col} (no : ¬((v.column c).walkOwed = true ∧ 0 < v.freeEntries)) :
    v.queueOwedAt c = v := by
  refine if_neg fun both => no ?_
  simpa [State.hasRoom] using both

/-- Settles O48. -/
theorem pollTimerQueuesAPoll : Obligations.PollTimerQueuesAPoll := by
  intro s running due poll u queues all
  have step : ∀ v : State, v.now = due → ∀ c, v.queueOwedAt c = queues v c ∧ (queues v c).now = due := by
    intro v now c
    by_cases both : (v.column c).walkOwed = true ∧ 0 < v.freeEntries
    · have same : queues v c = v.queueOwedAt c := by
        rw [State.queueOwedAt_due both.1 both.2]
        refine (if_pos both).trans ?_
        rw [← now]
        rfl
      exact ⟨same.symm, by rw [same, State.queueOwedAt_due both.1 both.2]; exact now⟩
    · have same : queues v c = v := if_neg both
      exact ⟨(State.queueOwedAt_none both).trans same.symm, by rw [same]; exact now⟩
  have begun : State.queuePoll { s.reach s.pollNext with pollNext := s.pollNext + pollPeriod } = u := by
    rw [State.queuePoll_eq]
    rfl
  have fold : allCols.foldl State.queueOwedAt u = all ∧ all.now = due := by
    rw [allCols_eq]
    exact List.foldl_rel (r := fun a b : State => a = b ∧ b.now = due) ⟨rfl, rfl⟩ fun c _ a b same => by
      obtain ⟨rfl, now⟩ := same
      exact step a now c
  refine ⟨?_, fun none => ?_⟩
  · rw [exec_pollTimerExpiry running, State.pollExpiry, begun, State.queueOwed_eq, fold.1]
  · have unowed : ∀ cs : List Col, cs.foldl State.queueOwedAt u = u := fun cs => by
      induction cs with
      | nil => rfl
      | cons c cs ih =>
        have idle : u.queueOwedAt c = u :=
          State.queueOwedAt_none fun both => Bool.false_ne_true ((none c).symm.trans both.1)
        rw [List.foldl_cons, idle, ih]
    rw [← fold.1, unowed]

end Sys2Proof.Machine
end

section
/-! What a held meal's timed reasons can touch, and a column that leaves reach (05 R113, 08 R159, 09 R176). -/

-- The declarations are elaborated one after another, which bounds the memory that their checks take at one time.
set_option Elab.async false

namespace Sys2Proof.Machine

open Config

/-! ## The fields that timed reasons touch -/

/-- `t` is `s` but for the entries, the lockers, the notices at the tail of the queue and the counters, silent
exchanges apart. -/
structure State.MealActs (s t : State) : Prop where
  outside : t = { s with entries := t.entries, lockers := t.lockers, notices := t.notices, gap := t.gap
                         counters := t.counters }
  notices : s.notices <+: t.notices
  silent : t.counters.silent = s.counters.silent

theorem State.MealActs.refl (s : State) : s.MealActs s := ⟨rfl, List.prefix_rfl, rfl⟩

theorem State.MealActs.trans {s t u : State} (h : s.MealActs t) (k : t.MealActs u) : s.MealActs u where
  outside := calc
    u = { t with entries := u.entries, lockers := u.lockers, notices := u.notices, gap := u.gap
                 counters := u.counters } := k.outside
    _ = { s with entries := u.entries, lockers := u.lockers, notices := u.notices, gap := u.gap
                 counters := u.counters } := by rw [h.outside]
  notices := h.notices.trans k.notices
  silent := k.silent.trans h.silent

theorem State.queueNotice_mealActs (s : State) (n : Notice) : s.MealActs (s.queueNotice n) where
  outside := by unfold State.queueNotice; split <;> rfl
  notices := (s.queueNotice_action n).notices
  silent := by unfold State.queueNotice; split <;> rfl

theorem State.setEntry_mealActs (s : State) (i : Slot) (e : Option Reservation) : s.MealActs (s.setEntry i e) :=
  ⟨rfl, List.prefix_rfl, rfl⟩

theorem State.enterLocker_mealActs (s : State) (l : LockerId) (st : LockerState) :
    s.MealActs (s.enterLocker l st) := ⟨rfl, List.prefix_rfl, rfl⟩

theorem State.endEntry_mealActs (s : State) (i : Slot) (why : Reason) : s.MealActs (s.endEntry i why) := by
  unfold State.endEntry
  split
  · exact .refl s
  · refine (s.setEntry_mealActs i none).trans (State.MealActs.trans ?_ (State.queueNotice_mealActs _ _))
    split
    · exact .refl _
    · exact ⟨rfl, List.prefix_rfl, rfl⟩

theorem State.expire_mealActs (s : State) (i : Slot) (why : Reason) (goes : LockerState) :
    s.MealActs (s.expire i why goes) := by
  unfold State.expire
  split
  · exact .refl s
  · split
    · exact (s.enterLocker_mealActs _ goes).trans (State.endEntry_mealActs _ i why)
    · exact s.endEntry_mealActs i why

theorem State.expireSpoiled_mealActs (s : State) (i : Slot) (why : Reason) : s.MealActs (s.expireSpoiled i why) := by
  unfold State.expireSpoiled
  split
  · exact .refl s
  · exact s.expire_mealActs i why _

theorem State.bringTimed_mealActs (s : State) (i : Slot) (why : Reason) : s.MealActs (s.bringTimed i why) := by
  unfold State.bringTimed
  split
  · exact .refl s
  · split
    · exact .refl s
    · exact .refl s
    · exact s.expireSpoiled_mealActs i why
    · exact s.setEntry_mealActs i _
    · exact s.setEntry_mealActs i _

theorem State.addCold_mealActs (s : State) (l : LockerId) : s.MealActs (s.addCold l) := by
  unfold State.addCold
  split
  · exact .refl s
  · next i m _ =>
    refine (s.enterLocker_mealActs l ((s.locker l).state.withMeal { m with cold := m.cold + 10 })).trans ?_
    dsimp only
    split
    · exact .refl _
    · split
      · exact State.bringTimed_mealActs _ _ _
      · exact .refl _

theorem State.blindPeriod_mealActs (s : State) (c : Col) : s.MealActs (s.blindPeriod c) := by
  unfold State.blindPeriod
  split
  · exact .refl s
  · have fold (ps : List Pos) (u : State) : u.MealActs (ps.foldl (fun s p => s.addCold (lockerAt c p)) u) := by
      induction ps generalizing u with
      | nil => exact .refl u
      | cons p ps ih => exact (u.addCold_mealActs (lockerAt c p)).trans (ih _)
    exact fold allPos s

/-! ## Cancellations (09 R176) -/

/-- The reply that a cancelled PASS operation gives. -/
def Op.cancelAnswer (op : Op) : Option Reply :=
  if op.origin = .pass then
    op.inboxRef.map fun ref => ⟨ref.kind ||| 0x80#8, ref.dest, 0x4D#8 :: op.mode.countData, false⟩
  else none

/-- The state without the operations of a list, each PASS operation among them answered. -/
def State.without (s : State) (ops : List Op) : State :=
  { s with
    ops := s.ops.filter fun o => ops.all fun op => o.tag != op.tag
    replies := s.replies ++ ops.filterMap Op.cancelAnswer }

theorem State.without_nil (s : State) : s.without [] = s := by
  simp [State.without]

theorem State.without_cons (s : State) (op : Op) (ops : List Op) :
    s.without (op :: ops) = (s.without [op]).without ops := by
  have replies : (op :: ops).filterMap Op.cancelAnswer
      = [op].filterMap Op.cancelAnswer ++ ops.filterMap Op.cancelAnswer := by
    rw [← List.filterMap_append]
    rfl
  simp only [State.without, List.filter_filter, List.append_assoc, replies, List.all_cons, List.all_nil, Bool.and_true]
  simp only [Bool.and_comm]

theorem State.MealActs.without {s t : State} (h : s.MealActs t) (ops : List Op) :
    (s.without ops).MealActs (t.without ops) where
  outside := by rw [h.outside]; rfl
  notices := h.notices
  silent := h.silent

/-- What CANCELLED does where it is delivered: a PASS operation is answered, a HEAT-SET's period is blind. -/
theorem State.deliver_cancelled (s : State) (op : Op) :
    let left : State := { s with replies := s.replies ++ [op].filterMap Op.cancelAnswer }
    left.MealActs (s.deliver op .cancelled) ∧ (op.origin ≠ .heat → s.deliver op .cancelled = left) := by
  intro left
  have quiet (h : [op].filterMap Op.cancelAnswer = []) : left = s := by
    simp only [left, h, List.append_nil]
  by_cases pass : op.origin = .pass
  · have answered : s.deliver op .cancelled = left := by
      cases ref : op.inboxRef with
      | none => simp [State.deliver, State.passOutcome, pass, ref, left, Op.cancelAnswer]
      | some ref' =>
        rw [State.deliver_pass_cancelled pass ref, State.passAnswer_eq]
        simp [left, Op.cancelAnswer, pass, ref, Status.code]
    exact ⟨answered ▸ .refl _, fun _ => answered⟩
  · rw [quiet (by simp [Op.cancelAnswer, pass])]
    have unlatch (l : LockerId) (origin : Origin) (slot : Option Slot) :
        s.unlatchOutcome l origin slot .cancelled = s := by
      unfold State.unlatchOutcome
      split <;> rfl
    have still (other : op.origin ≠ .heat) : s.deliver op .cancelled = s := by
      have position (l : LockerId) : s.deliverAt op l .cancelled = s := by
        unfold State.deliverAt
        split
        · exact unlatch _ _ _
        · exact unlatch _ _ _
        · exact unlatch _ _ _
        · split <;> rfl
        all_goals rfl
      unfold State.deliver
      cases origin : op.origin with
      | pass => exact absurd origin pass
      | heat => exact absurd origin other
      | collect | load | clear | purge =>
        dsimp only
        split
        · exact position _
        · rfl
      | _ => rfl
    refine ⟨?_, still⟩
    by_cases heat : op.origin = .heat
    · simp only [State.deliver, heat]
      split
      · exact s.blindPeriod_mealActs _
      · exact .refl s
    · rw [still heat]
      exact .refl s

theorem State.cancelOne_acts (s : State) (op : Op) :
    (s.without [op]).MealActs (s.cancelOne op) ∧ (op.origin ≠ .heat → s.cancelOne op = s.without [op]) := by
  obtain ⟨acts, quiet⟩ := s.deliver_cancelled op
  have drop (u : State) : u.removeOp op.tag = { u with ops := u.ops.filter fun o => o.tag != op.tag } := rfl
  have left : s.without [op]
      = State.removeOp { s with replies := s.replies ++ [op].filterMap Op.cancelAnswer } op.tag := by
    simp [State.without, State.removeOp]
  refine ⟨?_, fun other => ?_⟩
  · rw [left, State.cancelOne]
    exact ⟨by rw [acts.outside]; rfl, acts.notices, acts.silent⟩
  · rw [left, State.cancelOne, quiet other]

theorem State.foldl_cancelOne (s : State) (ops : List Op) :
    (s.without ops).MealActs (ops.foldl State.cancelOne s)
      ∧ ((∀ op ∈ ops, op.origin ≠ .heat) → ops.foldl State.cancelOne s = s.without ops) := by
  induction ops generalizing s with
  | nil => exact ⟨by rw [State.without_nil]; exact .refl s, fun _ => s.without_nil.symm⟩
  | cons op ops ih =>
    obtain ⟨acts, quiet⟩ := s.cancelOne_acts op
    obtain ⟨more, quietly⟩ := ih (s.cancelOne op)
    rw [State.without_cons, List.foldl_cons]
    refine ⟨(acts.without ops).trans more, fun other => ?_⟩
    rw [quietly fun o ho => other o (List.mem_cons_of_mem op ho), quiet (other op List.mem_cons_self)]

/-- In a queue of distinct tags the operations of a part of it leave by their tags. -/
theorem filter_without {ops : List Op} (distinct : (ops.map Op.tag).Nodup) (leaves : Op → Bool) :
    (ops.filter fun o => (ops.filter leaves).all fun op => o.tag != op.tag) = ops.filter fun o => !leaves o := by
  refine List.filter_congr fun o ho => ?_
  cases goes : leaves o with
  | true =>
    simp only [Bool.not_true]
    rw [List.all_eq_false]
    exact ⟨o, List.mem_filter.mpr ⟨ho, goes⟩, by simp⟩
  | false =>
    simp only [Bool.not_false, List.all_eq_true, List.mem_filter]
    rintro p ⟨hp, stays⟩
    have ne : o ≠ p := fun same => by rw [← same, goes] at stays; cases stays
    simpa using fun same => ne (List.inj_on_of_nodup_map distinct ho hp same)

/-- A column leaves reach (09 R176, 08 R159). -/
theorem State.leaveReach_leaves (v : State) (c : Col) (law : v.QueueLaw) : LeavesReach v (v.leaveReach c) c := by
  obtain ⟨_, distinct, _⟩ := law
  let marked : State :=
    { v with
      exchange := v.exchange.map fun x => if x.dest = .column c then { x with leftReach := true } else x }
  obtain ⟨acts, quiet⟩ := marked.foldl_cancelOne (v.ops.filter fun op => op.cancellable c)
  have left : marked.without (v.ops.filter fun op => op.cancellable c) =
      { v with
        ops := v.ops.filter fun op => !op.cancellable c
        replies := v.replies ++ (v.ops.filter fun op => op.cancellable c).filterMap Op.cancelAnswer
        exchange := v.exchange.map fun x => if x.dest = .column c then { x with leftReach := true } else x } := by
    simp only [State.without, marked, filter_without distinct]
  rw [left] at acts quiet
  exact ⟨acts.outside, acts.notices, fun other => quiet fun op hop => by
    obtain ⟨mem, goes⟩ := List.mem_filter.mp hop
    exact other op mem goes⟩

end Sys2Proof.Machine
end

section
/-! The slot answers of a poll (10 R181 to R187). -/

-- The declarations are elaborated one after another, which bounds the memory that their checks take at one time.
set_option Elab.async false

namespace Sys2Proof.Machine

open Config

/-! ## Column states (10 R179 to R184) -/

theorem State.changeState_eq (s : State) (c : Col) {st : ColState} (present : st ≠ .absent) :
    s.changeState c st = s.setColumn c
      { s.column c with
        state := st
        heatNext := if (s.column c).state = .absent then some (s.now + 10000000) else (s.column c).heatNext } := by
  unfold State.changeState
  rw [if_neg present]
  split
  · simp; rfl
  · simp

theorem State.announce_setColumn (s : State) (c : Col) (v : Column) :
    (s.setColumn c v).announce c = (s.setColumn c v).queueNotice (.columnState c v.state) := by
  simp [State.announce]

/-- What LeavesReach says depends on the queue of the state that the column leaves. -/
theorem State.leaveReach_of {s v : State} {c : Col} (law : s.QueueLaw) (ops : v.ops = s.ops) :
    LeavesReach v (v.leaveReach c) c := by
  refine v.leaveReach_leaves c ?_
  rw [State.QueueLaw, ops]
  exact law

theorem State.enterService_leaves {s : State} {c : Col} (law : s.QueueLaw) :
    LeavesReach
      (State.queueNotice (s.setColumn c
        { s.column c with
          state := .service
          heatNext := if (s.column c).state = .absent then some (s.now + 10000000) else (s.column c).heatNext })
        (.columnState c .service))
      (s.enterService c) c := by
  rw [State.enterService, State.changeState_eq s c (by nofun), State.announce_setColumn]
  exact State.leaveReach_of law (by simp)

theorem State.enterLost_leaves {s : State} {c : Col} (law : s.QueueLaw) (present : (s.column c).state ≠ .absent) :
    LeavesReach
      (State.queueNotice (s.setColumn c { s.column c with silence := 3, state := .lost }) (.columnState c .lost))
      (s.enterLost c) c := by
  have lost : (s.setColumn c { s.column c with silence := 3 }).changeState c .lost
      = s.setColumn c { s.column c with silence := 3, state := .lost } := by
    rw [State.changeState_eq _ c (by nofun)]
    simp [present]
  rw [State.enterLost, lost, State.announce_setColumn]
  exact State.leaveReach_of law (by simp)

/-! ## A FETCH that is offered (10 R186) -/

theorem State.fetchOutstanding_iff (s : State) (c : Col) :
    s.fetchOutstanding c = true ↔ ∃ op ∈ s.ops, op.origin = .fetch ∧ op.dest = .column c := by
  simp [State.fetchOutstanding]

/-- A FETCH may be queued for the column. -/
def State.fetchDue (s : State) (c : Col) : Prop :=
  s.reachable c = true ∧ (s.column c).walkPending = false ∧ (s.column c).attention = true
    ∧ 0 < s.freeEntries ∧ ∀ op ∈ s.ops, ¬(op.origin = .fetch ∧ op.dest = .column c)

theorem State.fetchOffered_iff (s : State) (c : Col) :
    (s.workable c && (s.column c).attention && !s.fetchOutstanding c) = true ↔
      s.reachable c = true ∧ (s.column c).walkPending = false ∧ (s.column c).attention = true
        ∧ ∀ op ∈ s.ops, ¬(op.origin = .fetch ∧ op.dest = .column c) := by
  have none : s.fetchOutstanding c = false ↔ ∀ op ∈ s.ops, ¬(op.origin = .fetch ∧ op.dest = .column c) := by
    rw [← Bool.not_eq_true, State.fetchOutstanding_iff]
    simp only [not_exists, not_and]
  simp only [Bool.and_eq_true, Bool.not_eq_true', State.workable, none, and_assoc]

theorem State.offerFetch_due {s : State} {c : Col} (due : s.fetchDue c) :
    s.offerFetch c =
      { s with ops := s.ops ++ [{ tag := s.lowestTag, dest := .column c, kind := 0x02#8, position := none
                                  side := none, mode := .untilEmpty 0, cls := .urgent, origin := .fetch, slot := none
                                  inboxRef := none, body := [], notBefore := s.now, inFlight := false }] } := by
  obtain ⟨near, settled, shows, room, none⟩ := due
  rw [State.offerFetch, if_pos ((s.fetchOffered_iff c).mpr ⟨near, settled, shows, none⟩), State.enqueue_room room]
  rfl

theorem State.offerFetch_idle {s : State} {c : Col} (idle : ¬s.fetchDue c) : s.offerFetch c = s := by
  unfold State.offerFetch
  split
  · next offered =>
    obtain ⟨near, settled, shows, none⟩ := (s.fetchOffered_iff c).mp offered
    exact State.enqueue_full (Nat.eq_zero_of_not_pos fun room => idle ⟨near, settled, shows, room, none⟩) _
  · rfl

/-! ## A walk that is called for (10 R187) -/

theorem Op.walkAhead_iff (op : Op) (c : Col) : op.walkAhead c = true ↔ ∃ w, op.mode = .walk w ∧ c ∈ w.ahead := by
  unfold Op.walkAhead
  cases op.mode <;> simp

section

variable {s : State} {c : Col}

theorem State.callWalk_served (served : ∃ op ∈ s.ops, ∃ w, op.mode = .walk w ∧ c ∈ w.ahead) :
    s.callWalk c = s.setColumn c { s.column c with walkPending := true } := by
  refine if_pos ?_
  simpa [Op.walkAhead_iff] using served

variable (unserved : ¬∃ op ∈ s.ops, ∃ w, op.mode = .walk w ∧ c ∈ w.ahead)
include unserved

theorem State.callWalk_queues (room : 0 < s.freeEntries) :
    s.callWalk c =
      { s.setColumn c { s.column c with walkPending := true } with
        ops := s.ops ++ [{ tag := s.lowestTag, dest := .column c, kind := 0x03#8, position := some 0
                           side := none, mode := .walk ⟨[], c, [], 0, .returning⟩, cls := .routine, origin := .roll
                           slot := none, inboxRef := none, body := [], notBefore := s.now, inFlight := false }] } := by
  have no : ¬(s.ops.any fun op => op.walkAhead c) = true := by simpa [Op.walkAhead_iff] using unserved
  have queued : (s.setColumn c { s.column c with walkPending := true }).enqueue (walkOp c [] .returning) = _ :=
    State.enqueue_room (s := s.setColumn c { s.column c with walkPending := true }) room _
  refine (if_neg no).trans ((if_pos (decide_eq_true room)).trans ?_)
  rw [queued]
  rfl

theorem State.callWalk_owes (full : s.freeEntries = 0) :
    s.callWalk c = s.setColumn c { s.column c with walkPending := true, walkOwed := true } := by
  have no : ¬(s.ops.any fun op => op.walkAhead c) = true := by simpa [Op.walkAhead_iff] using unserved
  have none : ¬(s.setColumn c { s.column c with walkPending := true }).hasRoom = true := by
    rw [show (s.setColumn c { s.column c with walkPending := true }).hasRoom = s.hasRoom from rfl,
      State.hasRoom_eq_false.mpr full]
    nofun
  refine (if_neg no).trans ((if_neg none).trans ?_)
  simp

end

/-! ## The return to use (10 R184) -/

theorem settle_reached {t : Nat} : min 4294967295 (t + 90) ≤ t ↔ 4294967295 ≤ t := by
  omega

/-- A column that has entered SETTLING now, at once ACTIVE where court time stands at its highest value (01 R8). -/
theorem State.settleDue_now {s : State} {c : Col}
    (settles : (s.column c).state = .settling (s.court.map fun t => min 4294967295 (t + 90))) :
    s.settleDue c =
      if s.court.any fun t => decide (4294967295 ≤ t) then
        (s.setColumn c { s.column c with state := .active }).queueNotice (.columnState c .active)
      else s := by
  cases court : s.court with
  | none =>
    rw [court] at settles
    exact State.settleDue_none settles
  | some t =>
    rw [court] at settles
    rw [State.settleDue_some court settles]
    simp only [Option.any_some, decide_eq_true_eq, settle_reached]

theorem State.settlingNow_eq (s : State) :
    s.settlingNow = .settling (s.court.map fun t => min 4294967295 (t + 90)) := rfl

/-- The column as a slot answer returns it to use, with the operations and the record the walk's call leaves. -/
theorem State.returnBySlot_eq {s : State} {c : Col} {v : Column} {ops : List Op}
    (called : (s.changeState c s.settlingNow).callWalk c = { s.setColumn c v with ops := ops })
    (settles : v.state = .settling (s.court.map fun t => min 4294967295 (t + 90))) :
    let u := State.queueNotice { s.setColumn c v with ops := ops }
      (.columnState c (.settling (s.court.map fun t => min 4294967295 (t + 90))))
    s.returnBySlot c =
      if s.court.any fun t => decide (4294967295 ≤ t) then
        (u.setColumn c { v with state := .active }).queueNotice (.columnState c .active)
      else u := by
  intro u
  have column : u.column c = v := by simp [u, State.column, State.setColumn]
  have court : u.court = s.court := by simp [u]
  have announced : State.announce { s.setColumn c v with ops := ops } c = u := by
    have column : ({ s.setColumn c v with ops := ops } : State).column c = v := by simp [State.column, State.setColumn]
    rw [State.announce, column, settles]
  rw [State.returnBySlot, called, announced, State.settleDue_now (by rw [column, settles, court]), column, court]

section

variable {s : State} {c : Col}

theorem State.silenceOf_still (still : ¬((s.column c).state.reachable = true ∨ (s.column c).state = .service)) :
    s.silenceOf c = s := by
  cases state : (s.column c).state <;> simp_all [State.silenceOf, ColState.reachable]

theorem State.silenceOf_counts (counting : (s.column c).state.reachable = true ∨ (s.column c).state = .service) :
    s.silenceOf c = if 3 ≤ (s.column c).silence + 1 then s.enterLost c
      else s.setColumn c { s.column c with silence := (s.column c).silence + 1 } := by
  cases state : (s.column c).state with
  | settling u => simp only [State.silenceOf, state]
  | active => simp only [State.silenceOf, state]
  | service => simp only [State.silenceOf, state]
  | _ => rw [state] at counting; rcases counting with no | no <;> cases no

theorem ColState.present_of_counting {st : ColState} (counting : st.reachable = true ∨ st = .service) :
    st ≠ .absent := by
  rintro rfl
  rcases counting with no | no <;> cases no

end

theorem State.setColumn_eq {u : State} {columns : Bank Column 8} {c : Col} {v : Column}
    (was : u.columns = columns.set c v) (w : Column) : u.setColumn c w = { u with columns := columns.set c w } := by
  rw [State.setColumn, was, Bank.set_set]

/-- The column's record as a slot answer writes it first (10 R181). -/
def State.heardSlot (s : State) (c : Col) (a : SlotAnswer) : State :=
  s.setColumn c { s.column c with silence := 0, attention := a.attn }

section

variable {s : State} {c : Col} {a : SlotAnswer}

theorem State.takeSlot_some : s.takeSlot c (some a) =
    match (s.column c).state with
    | .service => if a.svc then s.heardSlot c a else (s.heardSlot c a).returnBySlot c
    | .absent => if a.svc then (s.heardSlot c a).enterService c else (s.heardSlot c a).returnBySlot c
    | .lost => if a.svc then (s.heardSlot c a).enterService c else (s.heardSlot c a).returnBySlot c
    | .unseen => if a.svc then (s.heardSlot c a).enterService c else s.heardSlot c a
    | .settling _ => if a.svc then (s.heardSlot c a).enterService c else (s.heardSlot c a).offerFetch c
    | .active => if a.svc then (s.heardSlot c a).enterService c else (s.heardSlot c a).offerFetch c := rfl

theorem State.takeSlot_service (service : (s.column c).state = .service) :
    s.takeSlot c (some a) = if a.svc then s.heardSlot c a else (s.heardSlot c a).returnBySlot c := by
  rw [State.takeSlot_some, service]

theorem State.takeSlot_svc (other : (s.column c).state ≠ .service) (svc : a.svc = true) :
    s.takeSlot c (some a) = (s.heardSlot c a).enterService c := by
  cases state : (s.column c).state with
  | service => exact absurd state other
  | _ => rw [State.takeSlot_some, state]; exact if_pos svc

variable (clear : a.svc = false)
include clear

theorem State.takeSlot_returns
    (away : (s.column c).state = .absent ∨ (s.column c).state = .lost ∨ (s.column c).state = .service) :
    s.takeSlot c (some a) = (s.heardSlot c a).returnBySlot c := by
  have no : ¬a.svc = true := by rw [clear]; nofun
  rcases away with state | state | state <;> rw [State.takeSlot_some, state] <;> exact if_neg no

theorem State.takeSlot_offers (near : (s.column c).state.reachable = true) :
    s.takeSlot c (some a) = (s.heardSlot c a).offerFetch c := by
  have no : ¬a.svc = true := by rw [clear]; nofun
  cases state : (s.column c).state with
  | settling u => rw [State.takeSlot_some, state]; exact if_neg no
  | active => rw [State.takeSlot_some, state]; exact if_neg no
  | _ => rw [state] at near; cases near

theorem State.takeSlot_unseen (unseen : (s.column c).state = .unseen) :
    s.takeSlot c (some a) = s.heardSlot c a := by
  rw [State.takeSlot_some, unseen]
  exact if_neg (by rw [clear]; nofun)

end

/-- Settles O49. -/
theorem slotAnswersMoveTheColumn : Obligations.SlotAnswersMoveTheColumn := by
  intro s c a law col told heard timer counting
  have column : heard.column c = told := by simp [heard]
  have silent : s.takeSlot c none = s.silenceOf c := rfl
  refine ⟨fun still => silent.trans (State.silenceOf_still still), fun counts few => silent.trans ?_,
    fun counts many => ?_, fun service svc => ?_, fun other svc => ?_, fun away clear => ?back, fun near clear => ?fetch,
    fun unseen clear => State.takeSlot_unseen clear unseen⟩
  · rw [State.silenceOf_counts counts]
    exact if_neg (show ¬3 ≤ col.silence + 1 by omega)
  · rw [silent, State.silenceOf_counts counts, if_pos (show 3 ≤ (s.column c).silence + 1 from Nat.succ_le_succ many)]
    exact State.enterLost_leaves law (ColState.present_of_counting counts)
  · rw [State.takeSlot_service service, if_pos svc]
    rfl
  · rw [State.takeSlot_svc other svc]
    have leaves := State.enterService_leaves (s := heard) (c := c) law
    rw [column, show heard.setColumn c _ = s.setColumn c _ from State.setColumn_setColumn s c _ _] at leaves
    exact leaves
  case back =>
    intro until_ back gives served
    have changed : heard.changeState c heard.settlingNow
        = s.setColumn c { told with state := .settling until_, heatNext := timer } := by
      rw [State.changeState_eq _ _ (by rw [State.settlingNow_eq]; nofun), column, State.settlingNow_eq]
      exact State.setColumn_setColumn s c _ _
    let settling : State := s.setColumn c { told with state := .settling until_, heatNext := timer }
    have returned {v : Column} {ops : List Op} (state : v.state = .settling until_)
        (called : settling.callWalk c = { s.setColumn c v with ops := ops }) : gives ops v := by
      have eq := State.returnBySlot_eq (s := heard) (c := c) (v := v) (ops := ops)
        (by rw [changed, called, show heard.setColumn c v = s.setColumn c v from State.setColumn_setColumn s c _ _])
        state
      rw [show heard.setColumn c v = s.setColumn c v from State.setColumn_setColumn s c _ _] at eq
      have columns (n : Notice) : (State.queueNotice { s.setColumn c v with ops := ops } n).columns
          = s.columns.set c v := by simp [State.setColumn]
      refine (State.takeSlot_returns clear away).trans (eq.trans ?_)
      rw [State.setColumn_eq (columns _)]
      rfl
    have before : settling.column c = { told with state := .settling until_, heatNext := timer } := by simp [settling]
    have write (v : Column) : settling.setColumn c v = s.setColumn c v := State.setColumn_setColumn s c _ v
    refine ⟨fun isServed => ?_, fun unserved full => ?_, fun unserved room => ?_⟩
    · refine returned (v := back) rfl ?_
      rw [State.callWalk_served (s := settling) isServed, before, write]
      rfl
    · refine returned (v := { back with walkOwed := true }) rfl ?_
      rw [State.callWalk_owes (s := settling) unserved full, before, write]
      rfl
    · refine returned (v := back) rfl ?_
      rw [State.callWalk_queues (s := settling) unserved room, before, write]
      rfl
  case fetch =>
    intro due
    have offered : s.takeSlot c (some a) = heard.offerFetch c := State.takeSlot_offers clear near
    have heardDue : heard.fetchDue c ↔ due := by
      have reachable : heard.reachable c = true := by rw [State.reachable, column]; exact near
      simp only [State.fetchDue, reachable, column, true_and, due]
      exact ⟨fun ⟨settled, shows, more⟩ => ⟨shows, settled, more⟩, fun ⟨shows, settled, more⟩ => ⟨settled, shows, more⟩⟩
    exact ⟨fun idle => offered.trans (State.offerFetch_idle (mt heardDue.mp idle)),
      fun isDue => offered.trans (State.offerFetch_due (heardDue.mpr isDue))⟩

end Sys2Proof.Machine
end

section
/-! A position read as present is reconciled (10 R192, R193; 06 R126, R127). -/

-- The declarations are elaborated one after another, which bounds the memory that their checks take at one time.
set_option Elab.async false

namespace Sys2Proof.Machine

open Config

/-! ## The descriptor (07 R142) -/

theorem descriptorOf_eq (flags b hi lo : Byte) (more : List Byte) :
    let v : Int := (hi ++ lo : BitVec 16).toInt
    descriptorOf (flags :: b :: hi :: lo :: more) =
      { rating := b.toNat % 4, occupied := b.getLsbD 2, frontOpen := b.getLsbD 3, backOpen := b.getLsbD 4
        purgeRunning := b.getLsbD 5
        temp := if b.getLsbD 6 = true ∧ -200 ≤ v ∧ v ≤ 1300 then some v else none } := by
  have second : BitVec.ofNat 8 (natAt (flags :: b :: hi :: lo :: more) 1 1) = b := by
    rw [natAt, fieldAt_byte (b := b) rfl, beNat_singleton]
    simp
  have temp : intOf16 (fieldAt (flags :: b :: hi :: lo :: more) 2 2) = (hi ++ lo : BitVec 16).toInt := by
    rw [fieldAt_pair (a := hi) (b := lo) rfl rfl, intOf16_pair]
  simp only [descriptorOf, second, temp, inProbeRange, decide_eq_true_eq]

/-! ## What reconciliation touches -/

theorem State.windowDue_mealActs (s : State) (i : Slot) : s.MealActs (s.windowDue i) := by
  unfold State.windowDue
  split
  · exact .refl s
  · split
    · split
      · exact s.endEntry_mealActs i .notLoaded
      · exact .refl s
      all_goals exact s.bringTimed_mealActs i .window
    · exact .refl s

theorem State.restDue_mealActs (s : State) (l : LockerId) : s.MealActs (s.restDue l) := by
  unfold State.restDue
  split
  · split
    · exact s.enterLocker_mealActs l .purgeWait
    · exact .refl s
  · exact .refl s

theorem State.loadComplete_mealActs (s : State) (l : LockerId) : s.MealActs (s.loadComplete l) := by
  have enters (st : LockerState) (i : Slot) (e : Option Reservation) :
      s.MealActs ((s.enterLocker l st).setEntry i e) := ⟨rfl, List.prefix_rfl, rfl⟩
  unfold State.loadComplete
  split
  · split
    · exact .refl s
    · dsimp only
      split
      · exact (enters _ _ _).trans (State.expireSpoiled_mealActs _ _ _)
      · exact (enters _ _ _).trans (State.queueNotice_mealActs _ _)
  · exact .refl s

theorem State.loadUndone_mealActs (s : State) (l : LockerId) (goes : LockerState) :
    s.MealActs (s.loadUndone l goes) := by
  unfold State.loadUndone
  split
  · split
    · exact s.enterLocker_mealActs l goes
    · exact (show s.MealActs ((s.enterLocker l goes).setEntry _ _) from ⟨rfl, List.prefix_rfl, rfl⟩).trans
        (State.windowDue_mealActs _ _)
  · exact .refl s

theorem State.returnMeal_mealActs (s : State) (l : LockerId) (notice : Nat → LockerId → Notice) :
    s.MealActs (s.returnMeal l notice) := by
  have back (st : LockerState) (i : Slot) (e : Option Reservation) (n : Notice) :
      s.MealActs ((((s.enterLocker l st).setEntry i e).queueNotice n).windowDue i) :=
    ((show s.MealActs ((s.enterLocker l st).setEntry i e) from ⟨rfl, List.prefix_rfl, rfl⟩).trans
      (State.queueNotice_mealActs _ n)).trans (State.windowDue_mealActs _ i)
  unfold State.returnMeal
  split
  · exact .refl s
  · split
    · exact .refl s
    · split
      · exact back _ _ _ _
      · exact back _ _ _ _
      · exact s.expireSpoiled_mealActs _ _
      · exact s.expireSpoiled_mealActs _ _
      all_goals exact .refl s

theorem State.collectMeal_mealActs (s : State) (l : LockerId) : s.MealActs (s.collectMeal l) := by
  have frees (st : LockerState) (i : Slot) (n : Notice) :
      s.MealActs (((s.enterLocker l st).setEntry i none).queueNotice n) :=
    (show s.MealActs ((s.enterLocker l st).setEntry i none) from ⟨rfl, List.prefix_rfl, rfl⟩).trans
      (State.queueNotice_mealActs _ n)
  unfold State.collectMeal
  split
  · exact .refl s
  · split
    · exact .refl s
    · split
      · exact frees _ _ _
      · exact frees _ _ _
      all_goals exact .refl s

theorem State.confirmByEvent_mealActs (s : State) (l : LockerId) : s.MealActs (s.confirmByEvent l) := by
  unfold State.confirmByEvent State.confirmLatch
  split
  · split
    · split
      · exact .refl s
      · exact (show s.MealActs ((s.enterLocker l _).setEntry _ _) from ⟨rfl, List.prefix_rfl, rfl⟩).trans
          (State.queueNotice_mealActs _ _)
    · exact s.enterLocker_mealActs l _
    · exact s.enterLocker_mealActs l _
    · exact .refl s
  · exact .refl s

theorem State.startRest_mealActs (s : State) (l : LockerId) : s.MealActs (s.startRest l) :=
  (s.enterLocker_mealActs l _).trans (State.restDue_mealActs _ l)

theorem State.movePresent_mealActs (s : State) (l : LockerId) (occ : Bool) : s.MealActs (s.movePresent l occ) := by
  have discard : s.MealActs (s.discard l) := (s.enterLocker_mealActs l .purgeWait).trans (State.queueNotice_mealActs _ _)
  have respoil : s.MealActs (s.respoil l) := s.enterLocker_mealActs l _
  have choose {a b : State} (yes : s.MealActs a) (no : s.MealActs b) : s.MealActs (if occ then a else b) := by
    cases occ
    · exact no
    · exact yes
  unfold State.movePresent
  split
  · exact choose (s.enterLocker_mealActs l _) (s.enterLocker_mealActs l _)
  · exact choose (s.enterLocker_mealActs l _) (.refl s)
  · exact choose (s.enterLocker_mealActs l _) (.refl s)
  · exact s.startRest_mealActs l
  · exact .refl s
  · exact choose (s.loadComplete_mealActs l) (s.loadUndone_mealActs l _)
  · exact choose (.refl s) (s.expire_mealActs _ _ _)
  · exact choose (s.returnMeal_mealActs l _) (s.collectMeal_mealActs l)
  · exact choose (s.returnMeal_mealActs l _) (s.collectMeal_mealActs l)
  · exact choose respoil discard
  · exact choose respoil discard
  · exact .refl s

theorem State.keepForDoor_mealActs (s : State) (l : LockerId) (d : Descriptor) : s.MealActs (s.keepForDoor l d) := by
  unfold State.keepForDoor
  split
  · exact s.confirmByEvent_mealActs l
  · exact .refl s

/-! ## The branches of a reconciliation -/

section

variable {s : State} {l : LockerId} {d : Descriptor}

theorem State.reconcile_moves (idle : d.purgeRunning = false) (moves : s.staysForDoor l = false) :
    s.reconcilePresent l d = (s.writeDescriptor l d).movePresent l d.occupied := by
  simp only [State.reconcilePresent, idle, moves, Bool.false_eq_true, if_false]

theorem State.reconcile_stays (idle : d.purgeRunning = false) (stays : s.staysForDoor l = true) :
    s.reconcilePresent l d = (s.writeDescriptor l d).keepForDoor l d := by
  simp only [State.reconcilePresent, idle, stays, Bool.false_eq_true, if_false, if_true]

/-- A purge found running is looked at after everything else (06 R127). -/
theorem State.reconcile_running (running : d.purgeRunning = true) :
    s.reconcilePresent l d =
      (s.reconcilePresent l { d with purgeRunning := false }).purgeFound l (s.restReaches l) := by
  simp only [State.reconcilePresent, running, if_true, Bool.false_eq_true, if_false]
  rfl

theorem State.reconcile_mealActs (idle : d.purgeRunning = false) :
    (s.writeDescriptor l d).MealActs (s.reconcilePresent l d) := by
  cases stays : s.staysForDoor l
  · rw [State.reconcile_moves idle stays]
    exact State.movePresent_mealActs _ l _
  · rw [State.reconcile_stays idle stays]
    exact State.keepForDoor_mealActs _ l d

theorem State.staysForDoor_idle (idle : s.doorBusy l = false) : s.staysForDoor l = false := by
  simp [State.staysForDoor, idle]

theorem State.staysForDoor_purging (busy : s.doorBusy l = true) {t : Option Nat}
    (purging : (s.locker l).state = .purging t) : s.staysForDoor l = !restOverDoor s.now l.val := by
  simp [State.staysForDoor, State.restReaches, busy, purging, LockerState.isPurging]

theorem State.staysForDoor_other (busy : s.doorBusy l = true) (other : ∀ t, (s.locker l).state ≠ .purging t) :
    s.staysForDoor l = true := by
  have no : (s.locker l).state.isPurging = false := by
    cases state : (s.locker l).state with
    | purging t => exact absurd state (other t)
    | _ => rfl
  simp [State.staysForDoor, busy, no]

theorem Descriptor.latchOpen_iff (d : Descriptor) (side : Option Side) : d.latchOpen side = true ↔
    side = some .front ∧ d.frontOpen = true ∨ side = some .back ∧ d.backOpen = true := by
  cases side with
  | none => simp [Descriptor.latchOpen]
  | some side => cases side <;> simp [Descriptor.latchOpen]

end

/-! ## Rest (06 R126) -/

/-- The state in which a rest that starts now leaves its locker, by court time. -/
def restState (court : Option Nat) : LockerState :=
  match court with
  | none => .purgeRest none
  | some t => if t < 4294967295 then .purgeRest (some (min 4294967295 (t + 120))) else .purgeWait

theorem State.startRest_eq (s : State) (l : LockerId) : s.startRest l = s.enterLocker l (restState s.court) := by
  have rests (t : Option Nat) : ((s.enterLocker l (.purgeRest t)).locker l).state = .purgeRest t := by
    simp [Locker.enter]
  cases court : s.court with
  | none =>
    have unset : s.startRest l = (s.enterLocker l (.purgeRest none)).restDue l := by simp [State.startRest, court]
    rw [unset, State.restDue_none (rests none)]
    rfl
  | some t =>
    have set : s.startRest l = (s.enterLocker l (.purgeRest (some (min 4294967295 (t + 120))))).restDue l := by
      simp only [State.startRest, court]
      rfl
    rw [set, State.restDue_some (s := s.enterLocker l (.purgeRest (some (min 4294967295 (t + 120))))) court (rests _)]
    by_cases early : t < 4294967295
    · rw [if_neg (by omega), restState, if_pos early]
    · rw [if_pos (by omega), restState, if_neg early,
        State.enterLocker_again (a := .purgeRest (some (min 4294967295 (t + 120)))) fun _ => rfl]

theorem State.startRest_writes (s : State) (l : LockerId) :
    s.startRest l = { s with lockers := s.lockers.set l { s.locker l with state := restState s.court } } := by
  have plain : (s.locker l).enter (restState s.court) = { s.locker l with state := restState s.court } := by
    unfold restState
    split
    · rfl
    · split <;> rfl
  rw [State.startRest_eq, State.enterLocker, plain]
  rfl

/-- An entry bound to locker `l` expires, and the locker takes the state given (01 R13). -/
theorem State.expire_bound {s : State} {i : Slot} {r : Reservation} (hr : s.entry i = some r) {l : LockerId}
    (bound : r.stage.locker = some l) {why : Reason} (counts : why ≠ .notLoaded) (goes : LockerState) :
    s.expire i why goes =
      (((s.enterLocker l goes).setEntry i none).countExpired).queueNotice (.expired r.tag why (some l)) := by
  simp [State.expire, State.endEntry, hr, bound, counts]

theorem State.movePresent_purging {s : State} {l : LockerId} {t : Option Nat}
    (purging : (s.locker l).state = .purging t) (occ : Bool) : s.movePresent l occ = s.startRest l := by
  simp only [State.movePresent, purging]

/-- The record of a locker with a descriptor's fields written. -/
def Locker.described (lk : Locker) (d : Descriptor) : Locker :=
  { lk with
    rating := d.rating, occupied := if d.occupied then .yes else .no
    lastTemp := if d.temp.isSome then d.temp else lk.lastTemp }

theorem State.writeDescriptor_eq (s : State) (l : LockerId) (d : Descriptor) :
    s.writeDescriptor l d = s.setLocker l ((s.locker l).described d) := by
  cases temp : d.temp <;> simp [State.writeDescriptor, Locker.described, temp]

theorem State.locker_writeDescriptor (s : State) (l : LockerId) (d : Descriptor) :
    (s.writeDescriptor l d).locker l = (s.locker l).described d := by
  rw [State.writeDescriptor_eq]
  simp

theorem State.enterLocker_writeDescriptor (s : State) (l : LockerId) (d : Descriptor) (st : LockerState) :
    (s.writeDescriptor l d).enterLocker l st = s.setLocker l (((s.locker l).described d).enter st) := by
  rw [State.enterLocker, State.locker_writeDescriptor, State.writeDescriptor_eq]
  simp [State.setLocker]

/-- A PURGE-ABORT called for by a walk step (06 R125, R127). -/
theorem State.queueAbort_walkStep (v : State) (l : LockerId) : v.queueAbort l true =
    if v.abortOutstanding l = false ∧ 0 < v.freeEntries then
      { v with
        ops := v.ops ++ [{ purgeOp 0x07#8 l with tag := v.lowestTag, notBefore := v.now, inFlight := false }] }
    else v := by
  unfold State.queueAbort
  cases standing : v.abortOutstanding l with
  | true => simp
  | false =>
    by_cases room : 0 < v.freeEntries
    · simp [room, State.enqueue_room room]
    · simp [room, State.enqueue_full (Nat.eq_zero_of_not_pos room)]

theorem State.purgeFound_other {v : State} {l : LockerId} (other : ∀ t, (v.locker l).state ≠ .purging t)
    (rest : Bool) :
    v.purgeFound l rest = if rest then (v.queueAbort l true).restAfterWalk l else v.queueAbort l true := by
  refine if_neg ?_
  cases state : (v.locker l).state with
  | purging t => exact absurd state (other t)
  | _ => nofun

theorem State.restAfterWalk_idle {u : State} {l : LockerId}
    (idle : (u.locker l).state = .purgeWait ∨ (u.locker l).state = .empty) : u.restAfterWalk l = u.startRest l := by
  rcases idle with here | here <;> simp only [State.restAfterWalk, here]

theorem State.restAfterWalk_other {u : State} {l : LockerId}
    (other : ¬((u.locker l).state = .purgeWait ∨ (u.locker l).state = .empty)) : u.restAfterWalk l = u := by
  cases state : (u.locker l).state with
  | purgeWait => exact absurd (.inl state) other
  | empty => exact absurd (.inr state) other
  | _ => simp only [State.restAfterWalk, state]

/-- Settles O50. -/
theorem positionsReadAsPresentAreReconciled : Obligations.PositionsReadAsPresentAreReconciled := by
  refine ⟨descriptorOf_eq, fun s l d => ?_⟩
  intro lk become idle expires rests result resting
  let s1 := s.writeDescriptor l d
  have held : s1.locker l = lk := s.locker_writeDescriptor l d
  have write (st : LockerState) : s1.enterLocker l st = s.setLocker l (lk.enter st) :=
    s.enterLocker_writeDescriptor l d st
  have same : s1 = become lk.state := s.writeDescriptor_eq l d
  have state : (s1.locker l).state = lk.state := congrArg Locker.state held
  have rested : s1.startRest l = rests (become lk.state) := by
    rw [State.startRest_writes, ← same]
    rfl
  refine ⟨fun still => ⟨fun free => ?free, fun busy => ?busy⟩, fun running => ?running⟩
  case free =>
    have moved : result = s1.movePresent l d.occupied :=
      State.reconcile_moves still (State.staysForDoor_idle free)
    have entry (k : Slot) : s1.entry k = s.entry k := rfl
    refine ⟨fun t purging => ?_, fun absent => ?_, fun empty => ?_, fun t rest => ?_, fun f st blocked => ?_,
      fun st stored => ?_, fun i ph o r k now loading hr stage class_ court => ?load,
      fun i m r at_ holding hr ready => ?_, fun i m r at_ p hr stands => ?door⟩
    · rw [moved, State.movePresent_purging (state.trans purging), rested]
    · rw [moved]
      simp only [State.movePresent, state.trans absent, write]
      cases d.occupied <;> rfl
    · rcases empty with here | here <;> rw [moved, ← same] <;>
        simp only [State.movePresent, state.trans here, write] <;> cases d.occupied <;> rfl
    · rw [moved, ← same]
      simp only [State.movePresent, state.trans rest]
    · rw [moved, ← same]
      simp only [State.movePresent, state.trans blocked]
    · rw [moved]
      rcases stored with here | ⟨ph, o, here⟩ <;>
        simp only [State.movePresent, State.respoil, State.discard, state.trans here, LockerState.stored, write] <;>
        cases d.occupied <;> rfl
    case load =>
      have ends : result = if d.occupied then s1.loadComplete l else s1.loadUndone l .empty := by
        rw [moved]
        simp only [State.movePresent, state.trans loading]
      have late (close : Nat) (q : Reservation) (same : q.closes = close) :
          s1.overdue q = true ↔ close ≤ now := same ▸ State.overdue_of_court (s := s1) court q
      intro deadline close
      refine ⟨fun occ early => ?_, fun occ past => ?_, fun gone early => ?_, fun gone past => ?_⟩
      · rw [ends, if_pos occ, State.loadComplete_ready (s := s1) (state.trans loading) hr stage court class_ rfl rfl early,
          write]
        rfl
      · rw [ends, if_pos occ, State.loadComplete_overdue (s := s1) (state.trans loading) hr stage court class_ rfl rfl
          past, write]
        rfl
      · rw [ends, if_neg (by rw [gone]; nofun), State.loadUndone_early (s := s1) (state.trans loading) hr stage .empty
          (Bool.eq_false_iff.mpr (mt (late r.closes r rfl).mp (not_le.mpr early))), write]
        rfl
      · rw [ends, if_neg (by rw [gone]; nofun), State.loadUndone_overdue (s := s1) (state.trans loading) hr stage .empty
          ((late r.closes r rfl).mpr past), write]
        rfl
    · rw [moved, ← same]
      simp only [State.movePresent, state.trans holding]
      cases d.occupied with
      | true => rfl
      | false =>
        rw [if_neg (by nofun), if_neg (by nofun),
          State.expire_bound (s := s1) hr (by rw [ready]; rfl) (by decide), write]
        rfl
    case door =>
      have meal : (s1.locker l).state.meal = some (i, m) := by
        rw [state]
        rcases stands with ⟨here, _⟩ | ⟨⟨o, here⟩, _⟩ <;> rw [here] <;> rfl
      have ends : result = if d.occupied then s1.returnMeal l .returned else s1.collectMeal l := by
        rw [moved]
        rcases stands with ⟨here, _⟩ | ⟨⟨o, here⟩, _⟩ <;> simp only [State.movePresent, state.trans here]
      have stage : r.stage = .releasing l at_ p ∨ r.stage = .opened l at_ p :=
        stands.imp And.right And.right
      refine ⟨fun gone => ?_, fun occ unset early => ?_, fun why occ pending counts => ?_⟩
      · rw [ends, if_neg (by rw [gone]; nofun), State.collectMeal_eq (s := s1) meal hr stage, write]
        rfl
      · subst unset
        rw [ends, if_pos occ, State.returnMeal_ready (s := s1) meal hr .returned stage early, write]
        rfl
      · subst pending
        rw [ends, if_pos occ, State.returnMeal_pending (s := s1) meal hr .returned stage counts, write]
        rfl
  case busy =>
    intro open_
    have latch : d.latchOpen (s1.locker l).state.sideInUse = true ↔ open_ := by
      rw [state]
      exact d.latchOpen_iff _
    have stays (other : ∀ t, lk.state ≠ .purging t) :
        result = if d.latchOpen (s1.locker l).state.sideInUse then s1.confirmByEvent l else s1 :=
      State.reconcile_stays still (State.staysForDoor_other busy other)
    refine ⟨fun t purging => ?_, fun other keeps => ?_, fun i m r at_ p isOpen releasing hr stage => ?_,
      fun i o isOpen loading => ?_, fun st o isOpen clearing => ?_⟩
    · have stay := State.staysForDoor_purging busy (t := t) purging
      by_cases over_ : resting = true
      · rw [if_pos over_, show result = s1.movePresent l d.occupied from
          State.reconcile_moves still (stay.trans (by rw [show restOverDoor s.now l.val = true from over_]; rfl)),
          State.movePresent_purging (state.trans purging), rested]
      · have no : restOverDoor s.now l.val = false := Bool.eq_false_iff.mpr over_
        rw [if_neg over_, ← same, show result = s1.keepForDoor l d from
          State.reconcile_stays still (stay.trans (by rw [no]; rfl)), State.keepForDoor, state, purging]
        rfl
    · rw [stays other, ← same]
      rcases keeps with closed | known
      · exact if_neg (mt latch.mp closed)
      · split
        · exact State.confirmByEvent_known (by rw [state]; exact known)
        · rfl
    · rw [stays (by rw [releasing]; nofun), if_pos (latch.mpr isOpen),
        State.confirmByEvent_awaits (by rw [state, releasing]; rfl),
        State.confirmLatch_releasing (s := s1) (state.trans releasing) hr stage, write]
      rfl
    · rw [stays (by rw [loading]; nofun), if_pos (latch.mpr isOpen),
        State.confirmByEvent_awaits (by rw [state, loading]; rfl)]
      simp only [State.confirmLatch, state.trans loading, write]
      rfl
    · rw [stays (by rw [clearing]; nofun), if_pos (latch.mpr isOpen),
        State.confirmByEvent_awaits (by rw [state, clearing]; rfl)]
      simp only [State.confirmLatch, state.trans clearing, write]
      rfl
  case running =>
    intro v u idles
    have found : result = v.purgeFound l (s.restReaches l) := State.reconcile_running running
    have acts := State.reconcile_mealActs (s := s) (l := l) (d := { d with purgeRunning := false }) rfl
    have court : v.court = s.court := (congrArg State.court acts.outside).trans rfl
    have aborted : v.queueAbort l true = u := v.queueAbort_walkStep l
    have outside : u.lockers = v.lockers ∧ u.court = v.court := by
      rw [← aborted]
      simp
    obtain ⟨lockers, uCourt⟩ := outside
    have uState : (u.locker l).state = (v.locker l).state := by rw [State.locker, lockers]; rfl
    have unpurged (other : ∀ t, (v.locker l).state ≠ .purging t) :
        result = if s.restReaches l then u.restAfterWalk l else u := by
      rw [found, State.purgeFound_other other, aborted]
    have reach : s.restReaches l = true ↔ s.doorBusy l = false ∨ resting = true := by
      simp [State.restReaches, resting]
    refine ⟨fun t purging => ?_, fun reaches isIdle => ?_, fun other keeps => ?_⟩
    · rw [found]
      simp only [State.purgeFound, purging]
      rfl
    · rw [unpurged (by rcases isIdle with here | here <;> rw [here] <;> nofun), if_pos (reach.mpr reaches),
        State.restAfterWalk_idle (by rw [uState]; exact isIdle), State.startRest_writes,
        show restState u.court = restState s.court by rw [uCourt, court]]
      rfl
    · rw [unpurged other]
      rcases keeps with ⟨busy, no⟩ | busy
      · refine if_neg (mt reach.mp ?_)
        rw [busy, no]
        simp
      · have still : u.restAfterWalk l = u := State.restAfterWalk_other (by rw [uState]; exact busy)
        rw [still, ite_self]

end Sys2Proof.Machine
end

section
/-! The steps of a walk and the ends of its parts (10 R187 to R193, 08 R158). -/

-- The declarations are elaborated one after another, which bounds the memory that their checks take at one time.
set_option Elab.async false

namespace Sys2Proof.Machine

open Config

theorem allPos_eq : allPos = [0, 1, 2, 3, 4, 5, 6, 7] := by decide

/-! ## A position ruled out (10 Table 10-4) -/

section

variable {s : State} {l : LockerId}

theorem State.reconcileAbsent_unbound (unbound : (s.locker l).state.slot = none) :
    s.reconcileAbsent l = s.enterLocker l .absent := by
  cases state : (s.locker l).state with
  | loading | holding | releasing | opened => rw [state] at unbound; cases unbound
  | _ => simp only [State.reconcileAbsent, state]

theorem State.reconcileAbsent_loading {i : Slot} {ph : Phase} {d : Door}
    (loading : (s.locker l).state = .loading i ph d) : s.reconcileAbsent l = s.loadUndone l .absent := by
  simp only [State.reconcileAbsent, loading]

theorem State.enterLocker_absent_twice (s : State) (l : LockerId) :
    (s.enterLocker l .absent).enterLocker l .absent = s.enterLocker l .absent := by
  simp [State.enterLocker, State.setLocker, State.locker, Locker.enter]

/-- A held meal whose position is gone expires MISSING. -/
theorem State.reconcileAbsent_meal {i : Slot} {m : Meal} (meal : (s.locker l).state.meal = some (i, m))
    {r : Reservation} (hr : s.entry i = some r) (bound : r.stage.locker = some l) :
    s.reconcileAbsent l =
      (((s.enterLocker l .absent).setEntry i none).countExpired).queueNotice (.expired r.tag .missing (some l)) := by
  have expires : s.reconcileAbsent l = (s.expire i .missing .absent).enterLocker l .absent := by
    cases state : (s.locker l).state with
    | holding | releasing | opened =>
      rw [state] at meal
      cases meal
      simp only [State.reconcileAbsent, state]
    | _ => rw [state] at meal; cases meal
  rw [expires, State.expire_bound hr bound (by decide), State.enterLocker_queueNotice]
  have inner : State.enterLocker (((s.enterLocker l .absent).setEntry i none).countExpired) l .absent
      = (((s.enterLocker l .absent).enterLocker l .absent).setEntry i none).countExpired := rfl
  rw [inner, State.enterLocker_absent_twice]

theorem State.reconcileAbsent_mealActs (s : State) (l : LockerId) : s.MealActs (s.reconcileAbsent l) := by
  unfold State.reconcileAbsent
  split
  · exact s.loadUndone_mealActs l .absent
  iterate 3 exact (s.expire_mealActs _ _ _).trans (State.enterLocker_mealActs _ l .absent)
  all_goals exact s.enterLocker_mealActs l .absent

theorem State.absentFrom_mealActs (s : State) (c : Col) (p : Pos) : s.MealActs (s.absentFrom c p) := by
  have fold (qs : List Pos) (u : State) :
      u.MealActs (qs.foldl (fun s q => s.reconcileAbsent (lockerAt c q)) u) := by
    induction qs generalizing u with
    | nil => exact .refl u
    | cons q qs ih => exact (u.reconcileAbsent_mealActs (lockerAt c q)).trans (ih _)
  exact fold _ s

end

/-! ## The walk's cursor (08 R158, 10 R190) -/

theorem countP_eq_filter (b : Bank Column 8) (p : Column → Bool) :
    b.count p = (allCols.filter fun k => p (b.get k)).length := by
  rw [Bank.count, bank_cells, List.countP_map, List.countP_eq_length_filter]
  rfl

theorem State.columnsPresent_eq (s : State) : s.columnsPresent =
    (allCols.filter fun k => (s.column k).state.reachable || decide ((s.column k).state = .service)).length := by
  rw [State.columnsPresent, countP_eq_filter]
  simp only [beq_eq_decide]
  rfl

theorem State.lockersPresent_eq (s : State) : s.lockersPresent =
    ((List.finRange 64).filter fun l => decide ((s.locker l).state ≠ .absent)).length := by
  rw [State.lockersPresent, Bank.count, bank_cells, List.countP_map, List.countP_eq_length_filter]
  congr 1
  refine List.filter_congr fun l _ => ?_
  exact Bool.eq_iff_iff.mpr (bne_iff_ne.trans decide_eq_true_iff.symm)

/-- The notice of an inventory that has ended. -/
def State.tellInventory (s : State) : State :=
  s.queueNotice (.inventoryDone s.columnsPresent s.lockersPresent)

theorem State.walkDone_returning (s : State) (tag : Nat) : s.walkDone tag .returning = s.removeOp tag := rfl

theorem State.walkDone_rollCall (s : State) (tag : Nat) :
    s.walkDone tag .rollCall = s.tellInventory.removeOp tag := rfl

theorem State.walkDone_initial (s : State) (tag : Nat) :
    s.walkDone tag .initial = s.tellInventory.noteWalkEnded.removeOp tag := rfl

theorem State.noteWalkEnded_eq (s : State) : s.noteWalkEnded =
    if s.mode = .starting ∧ s.clockMark = true then
      State.queueNotice { s with walkEnded := true, mode := .run, ledLow := true } (.mode .run)
    else { s with walkEnded := true } := by
  unfold State.noteWalkEnded State.startIfReady
  by_cases ready : s.mode = .starting ∧ s.clockMark = true
  · rw [if_pos ready, if_pos (by simp [ready])]
    rfl
  · rw [if_neg ready, if_neg (by simpa using ready)]

/-! ## The marks of the mode (11 R204) -/

/-- Mode and clock mark are as they were. -/
def State.SameMarks (s t : State) : Prop := t.mode = s.mode ∧ t.clockMark = s.clockMark

theorem State.SameMarks.trans {s t u : State} (h : s.SameMarks t) (k : t.SameMarks u) : s.SameMarks u :=
  ⟨k.1.trans h.1, k.2.trans h.2⟩

theorem State.Action.marks {s t : State} (h : s.Action t) : s.SameMarks t := by
  have outside := h.outside
  exact ⟨(congrArg State.mode outside).trans rfl, (congrArg State.clockMark outside).trans rfl⟩

theorem State.MealActs.marks {s t : State} (h : s.MealActs t) : s.SameMarks t := by
  have outside := h.outside
  exact ⟨(congrArg State.mode outside).trans rfl, (congrArg State.clockMark outside).trans rfl⟩

theorem State.leaveReach_marks (s : State) (c : Col) : s.SameMarks (s.leaveReach c) := by
  let marked : State :=
    { s with
      exchange := s.exchange.map fun x => if x.dest = .column c then { x with leftReach := true } else x }
  exact (marked.foldl_cancelOne (s.ops.filter fun op => op.cancellable c)).1.marks

theorem State.partState_marks (s : State) (c : Col) (how : PartEnd) : s.SameMarks (s.partState c how) := by
  have same : s.SameMarks s := ⟨rfl, rfl⟩
  have announced (st : ColState) : s.SameMarks ((s.changeState c st).announce c) :=
    ((s.changeState_action c st).trans (State.announce_action _ c)).marks
  have returns : s.SameMarks (((s.changeState c s.settlingNow).announce c).settleDue c) :=
    (announced _).trans (State.settleDue_action _ c).marks
  have service : s.SameMarks (s.enterService c) := (s.enterService_action c).marks.trans (State.leaveReach_marks _ c)
  have lost : s.SameMarks (s.enterLost c) := (s.enterLost_action c).marks.trans (State.leaveReach_marks _ c)
  unfold State.partState
  split
  · exact announced _
  · exact returns
  · exact returns
  iterate 4 exact same
  · exact service
  · exact ((announced _).trans (State.leaveReach_marks _ c)).trans (State.absentFrom_mealActs _ c 0).marks
  iterate 2 exact same
  · exact lost

theorem State.endPart_marks (s : State) (tag : Nat) (c : Col) (how : PartEnd) : s.SameMarks (s.endPart tag c how) :=
  (s.partState_marks c how).trans (s.endPart_action tag c how).marks

/-! ## The end of a part (10 R187 to R189) -/

theorem Op.walkStill_iff (op : Op) (c : Col) :
    op.walkStill c = true ↔ ∃ w, op.mode = .walk w ∧ (w.here = c ∨ c ∈ w.ahead) := by
  unfold Op.walkStill
  cases op.mode <;> simp

/-- Another walk of the column is queued, or one is owed. -/
def State.walkLater (s : State) (tag : Nat) (c : Col) : Prop :=
  (s.column c).walkOwed = true
    ∨ ∃ op ∈ s.ops, op.tag ≠ tag ∧ ∃ w, op.mode = .walk w ∧ (w.here = c ∨ c ∈ w.ahead)

/-- The end of a part after its column's state: walk pending, and a FETCH that is offered. -/
theorem State.endPart_eq (s : State) (tag : Nat) (c : Col) (how : PartEnd) :
    ∃ v : State,
      ((s.partState c how).walkLater tag c → v = s.partState c how)
      ∧ (¬(s.partState c how).walkLater tag c →
          v = (s.partState c how).setColumn c { (s.partState c how).column c with walkPending := false })
      ∧ s.endPart tag c how = v.offerFetch c := by
  let u := s.partState c how
  have later : ((u.ops.any fun op => op.tag != tag && op.walkStill c) || (u.column c).walkOwed) = true
      ↔ u.walkLater tag c := by
    rw [Bool.or_comm, Bool.or_eq_true, List.any_eq_true]
    simp only [Bool.and_eq_true, bne_iff_ne, Op.walkStill_iff]
    rfl
  by_cases isLater : u.walkLater tag c
  · exact ⟨u, fun _ => rfl, fun no => absurd isLater no, congrArg (State.offerFetch · c) (if_pos (later.mpr isLater))⟩
  · exact ⟨_, fun yes => absurd yes isLater, fun _ => rfl,
      congrArg (State.offerFetch · c) (if_neg (mt later.mp isLater))⟩

/-- A column that leaves reach leaves the walks in the queue (09 R176). -/
theorem LeavesReach.walkLater {v u : State} {c : Col} (leaves : LeavesReach v u c) (tag : Nat) :
    u.walkLater tag c ↔ v.walkLater tag c := by
  obtain ⟨outside, _⟩ := leaves
  have columns : u.columns = v.columns := (congrArg State.columns outside).trans rfl
  have ops : u.ops = v.ops.filter fun op => !(op.dest == .column c && !op.inFlight && !op.mode.isWalk) :=
    (congrArg State.ops outside).trans rfl
  simp only [State.walkLater, State.column, columns, ops, List.mem_filter]
  refine or_congr_right ⟨?_, ?_⟩
  · rintro ⟨op, ⟨mem, _⟩, more⟩
    exact ⟨op, mem, more⟩
  · rintro ⟨op, mem, other, w, mode, still⟩
    exact ⟨op, ⟨mem, by simp [mode, Mode.isWalk]⟩, other, w, mode, still⟩

theorem State.MealActs.walkLater {v u : State} (acts : v.MealActs u) (tag : Nat) (c : Col) :
    u.walkLater tag c ↔ v.walkLater tag c := by
  have columns : u.columns = v.columns := (congrArg State.columns acts.outside).trans rfl
  have ops : u.ops = v.ops := (congrArg State.ops acts.outside).trans rfl
  simp only [State.walkLater, State.column, columns, ops]

section

variable {s : State} {tag : Nat} {c : Col}

/-- A part that leaves the column's record and the queue to its state `u`, in the terms of the state before. -/
theorem State.endPart_of {how : PartEnd} {u : State} (ends : s.partState c how = u)
    (later : u.walkLater tag c ↔ s.walkLater tag c) :
    ∃ v : State, ((s.walkLater tag c → v = u)
      ∧ (¬s.walkLater tag c → v = u.setColumn c { u.column c with walkPending := false }))
      ∧ (¬v.fetchDue c → s.endPart tag c how = v)
      ∧ (v.fetchDue c → s.endPart tag c how =
          { v with ops := v.ops ++ [{ tag := v.lowestTag, dest := .column c, kind := 0x02#8, position := none
                                      side := none, mode := .untilEmpty 0, cls := .urgent
                                      origin := .fetch, slot := none, inboxRef := none, body := []
                                      notBefore := v.now, inFlight := false }] }) := by
  obtain ⟨v, stays, clears, offers⟩ := s.endPart_eq tag c how
  subst ends
  exact ⟨v, ⟨fun h => stays (later.mpr h), fun h => clears (mt later.mp h)⟩,
    fun idle => offers.trans (State.offerFetch_idle idle), fun due => offers.trans (State.offerFetch_due due)⟩

/-- The record of one column written with its walk owed as it was. -/
theorem State.walkLater_setColumn {v : Column} (owed : v.walkOwed = (s.column c).walkOwed) (n : Notice) :
    ((s.setColumn c v).queueNotice n).walkLater tag c ↔ s.walkLater tag c := by
  simp only [State.walkLater, State.column_queueNotice, State.column_setColumn, if_true, owed, State.queueNotice_fields,
    State.setColumn_fields]

end

section

variable {s : State} {c : Col}

theorem State.partState_unseen (unseen : (s.column c).state = .unseen) :
    s.partState c .reading = (s.setColumn c { s.column c with state := .active }).queueNotice
      (.columnState c .active) := by
  have read : s.partState c .reading = (s.changeState c .active).announce c := by simp only [State.partState, unseen]
  rw [read, State.changeState_eq s c (by nofun), State.announce_setColumn]
  simp [unseen]

theorem State.partState_back (away : (s.column c).state = .absent ∨ (s.column c).state = .lost) :
    let u := State.queueNotice
      (s.setColumn c
        { s.column c with
          state := .settling (s.court.map fun t => min 4294967295 (t + 90))
          heatNext := if (s.column c).state = .absent then some (s.now + 10000000) else (s.column c).heatNext })
      (.columnState c (.settling (s.court.map fun t => min 4294967295 (t + 90))))
    s.partState c .reading =
      if s.court.any fun t => decide (4294967295 ≤ t) then
        (u.setColumn c { u.column c with state := .active }).queueNotice (.columnState c .active)
      else u := by
  intro u
  have read : s.partState c .reading = ((s.changeState c s.settlingNow).announce c).settleDue c := by
    rcases away with here | here <;> simp only [State.partState, here]
  rw [read, State.changeState_eq s c (by rw [State.settlingNow_eq]; nofun), State.announce_setColumn,
    State.settlingNow_eq]
  have due := State.settleDue_now (s := u) (c := c) (by simp [u])
  rwa [show u.court = s.court by simp [u]] at due

theorem State.partState_reading_still (here : (s.column c).state.reachable = true ∨ (s.column c).state = .service) :
    s.partState c .reading = s := by
  cases state : (s.column c).state with
  | settling | active | service => simp only [State.partState, state]
  | _ => rw [state] at here; rcases here with no | no <;> cases no

theorem State.partState_refused_service (service : (s.column c).state = .service) :
    s.partState c .refused = s := by
  simp only [State.partState, service]

theorem State.partState_refused (other : (s.column c).state ≠ .service) :
    s.partState c .refused = s.enterService c := by
  cases state : (s.column c).state with
  | service => exact absurd state other
  | _ => simp only [State.partState, state]

theorem State.partState_silent_unseen (unseen : (s.column c).state = .unseen) :
    s.partState c .silent = (((s.changeState c .absent).announce c).leaveReach c).absentFrom c 0 := by
  simp only [State.partState, unseen]

theorem State.partState_silent_away (away : (s.column c).state = .absent ∨ (s.column c).state = .lost) :
    s.partState c .silent = s := by
  rcases away with here | here <;> simp only [State.partState, here]

theorem State.partState_silent (here : (s.column c).state.reachable = true ∨ (s.column c).state = .service) :
    s.partState c .silent = s.enterLost c := by
  cases state : (s.column c).state with
  | settling | active | service => simp only [State.partState, state]
  | _ => rw [state] at here; rcases here with no | no <;> cases no

theorem State.changeState_absent (s : State) (c : Col) :
    s.changeState c .absent =
      s.setColumn c { s.column c with state := .absent, heatNext := none, granted := .fill 8 0 } := by
  simp [State.changeState]

end

/-- The walk moves its cursor on within its list. -/
theorem State.moveWalk_some (u : State) (tag : Nat) (cause : WalkCause) (v : Walk) :
    u.moveWalk tag cause (some v) =
      { u with ops := u.ops.map fun o =>
          if o.tag = tag then
            { o with mode := .walk v, dest := .column v.here, position := some v.pos, inFlight := false }
          else o } := rfl

/-- Settles O51. -/
theorem walkStepsReadTheColumns : Obligations.WalkStepsReadTheColumns := by
  refine ⟨fun s tag w => ?steps, fun s tag c law => ?parts, fun s c p => ?_, fun s l => ?absent⟩
  case steps =>
    intro c at_ goes
    have moves {u : State} (marks : s.SameMarks u) : goes u (u.moveWalk tag w.cause w.nextColumn) := by
      refine ⟨fun k ks ahead => ?_, fun last => ?_⟩
      · simp only [Walk.nextColumn, ahead]
        rfl
      · intro present known told drop
        have ends : u.moveWalk tag w.cause w.nextColumn = u.walkDone tag w.cause := by
          simp only [Walk.nextColumn, last]
          rfl
        have tells : u.tellInventory = told := by
          rw [State.tellInventory, State.columnsPresent_eq, State.lockersPresent_eq]
        refine ⟨fun cause => ?_, fun cause => ?_, fun cause => ?_⟩
        · rw [ends, cause, State.walkDone_returning]
          rfl
        · rw [ends, cause, State.walkDone_rollCall, tells]
          rfl
        · intro marked
          have mode : told.mode = s.mode := (State.queueNotice_action u _).marks.1.trans marks.1
          have clock : told.clockMark = s.clockMark := (State.queueNotice_action u _).marks.2.trans marks.2
          rw [ends, cause, State.walkDone_initial, tells, State.noteWalkEnded_eq]
          exact congrArg drop (if_congr (by rw [mode, clock]) rfl rfl)
    refine ⟨fun f body taken met => ?_, fun f body taken unmet => ?_, fun f body refused => ?_, ?_⟩
    · intro v
      have acts : s.SameMarks v := (State.reconcilePresent_action (descriptorOf_rating body)).marks
      refine ⟨fun h => ?_, fun last => ?_⟩
      · have inner : ¬w.pos.val = 7 := by omega
        simp only [State.walkStep, taken, met, Bool.not_true, Bool.false_eq_true, if_false, if_neg inner,
          Walk.nextPosition, dif_pos h]
        rfl
      · simp only [State.walkStep, taken, met, Bool.not_true, Bool.false_eq_true, if_false, if_pos last]
        exact moves (acts.trans (v.endPart_marks tag c .reading))
    · simp only [State.walkStep, taken, unmet, Bool.not_true, Bool.not_false, Bool.false_eq_true, if_false, if_true]
      exact moves ((s.absentFrom_mealActs c w.pos).marks.trans (State.endPart_marks _ tag c .reading))
    · simp only [State.walkStep, refused, Bool.not_false, if_true]
      exact moves (s.endPart_marks tag c .refused)
    · exact moves (s.endPart_marks tag c .silent)
  case parts =>
    intro col timer later clears offers ends tells
    have ended {how : PartEnd} {u : State} (state : s.partState c how = u)
        (same : u.walkLater tag c ↔ s.walkLater tag c) : ends how u := State.endPart_of state same
    refine ⟨fun unseen => ?_, fun away => ?_, fun here => ended (State.partState_reading_still here) Iff.rfl,
      fun service => ended (State.partState_refused_service service) Iff.rfl, fun other => ?_, fun unseen => ?_,
      fun away => ended (State.partState_silent_away away) Iff.rfl, fun here => ?_⟩
    · exact ended (State.partState_unseen unseen) (State.walkLater_setColumn (by rfl) _)
    · intro u
      refine ended (State.partState_back away) ?_
      have told : u.walkLater tag c ↔ s.walkLater tag c := State.walkLater_setColumn (by rfl) _
      split
      · exact (State.walkLater_setColumn (by rfl) _).trans told
      · exact told
    · have leaves := State.enterService_leaves (c := c) law
      exact ⟨s.enterService c, leaves, ended (State.partState_refused other)
        ((leaves.walkLater tag).trans (State.walkLater_setColumn (by rfl) _))⟩
    · have left : LeavesReach
          (tells { col with state := .absent, heatNext := none, granted := .fill 8 0 })
          (((s.changeState c .absent).announce c).leaveReach c) c := by
        rw [State.changeState_absent, State.announce_setColumn]
        exact State.leaveReach_of law (by simp [tells])
      exact ⟨_, left, ended (State.partState_silent_unseen unseen)
        (((State.absentFrom_mealActs _ c 0).walkLater tag c).trans
          ((left.walkLater tag).trans (State.walkLater_setColumn (by rfl) _)))⟩
    · have leaves := State.enterLost_leaves (c := c) law (ColState.present_of_counting here)
      exact ⟨s.enterLost c, leaves, ended (State.partState_silent here)
        ((leaves.walkLater tag).trans (State.walkLater_setColumn (by rfl) _))⟩
  · rw [State.absentFrom, allPos_eq]
  case absent =>
    intro lk gone
    refine ⟨fun unbound => ?_, fun i ph d r loading hr stage => ?_, fun i m r meal hr bound => ?_⟩
    · rw [State.reconcileAbsent_unbound unbound]
      rfl
    · rw [State.reconcileAbsent_loading loading]
      by_cases late : s.overdue r = true
      · rw [if_pos late, State.loadUndone_overdue loading hr stage .absent late]
        rfl
      · rw [if_neg late, State.loadUndone_early loading hr stage .absent (Bool.eq_false_iff.mpr late)]
        rfl
    · rw [State.reconcileAbsent_meal meal hr bound]
      rfl

end Sys2Proof.Machine
end

section
/-! The Operation Queue and the scheduler's choice (09 R167 to R173). -/

-- The declarations are elaborated one after another, which bounds the memory that their checks take at one time.
set_option Elab.async false

namespace Sys2Proof.Machine

open Config

/-! ## The free entries (09 R167, R168) -/

theorem State.freeEntries_eq (s : State) :
    s.freeEntries = 31 - (s.ops.filter fun o => decide (o.tag ≠ 0)).length - s.reserve := by
  have count : s.ops.countP (fun op => op.tag != 0) = (s.ops.filter fun o => decide (o.tag ≠ 0)).length := by
    rw [List.countP_eq_length_filter]
    congr 1
    exact List.filter_congr fun o _ => Bool.eq_iff_iff.mpr (bne_iff_ne.trans decide_eq_true_iff.symm)
  rw [State.freeEntries, count]
  rfl

/-- Where an entry is free, one of the tags 1 to 31 belongs to no operation. -/
theorem State.exists_free_tag {s : State} (room : 0 < s.freeEntries) :
    ∃ t, 1 ≤ t ∧ t ≤ 31 ∧ ∀ op ∈ s.ops, op.tag ≠ t := by
  by_contra taken
  push Not at taken
  have all : List.range' 1 31 ⊆ (s.ops.filter fun o => decide (o.tag ≠ 0)).map Op.tag := by
    intro t ht
    obtain ⟨low, high⟩ := List.mem_range'_1.mp ht
    obtain ⟨op, hop, rfl⟩ := taken t low (by omega)
    exact List.mem_map.mpr ⟨op, List.mem_filter.mpr ⟨hop, decide_eq_true (by omega)⟩, rfl⟩
  have many := (List.nodup_range' (s := 1) (n := 31) (step := 1)).subperm all |>.length_le
  rw [List.length_range', List.length_map] at many
  rw [State.freeEntries_eq] at room
  omega

/-- Settles O52. -/
theorem operationsTakeTheLowestFreeEntry : Obligations.OperationsTakeTheLowestFreeEntry := fun s op =>
  ⟨s.freeEntries_eq, fun full => State.enqueue_full full op,
    fun _ room => ⟨State.enqueue_room room op, State.lowestTag_spec (State.exists_free_tag room)⟩⟩

/-! ## The scheduler's choice (09 R173) -/

/-- The oldest eligible operation of a class at moment `t`. -/
def State.oldest (s : State) (ops : List Op) (t : Time) (k : OpClass) : Option Op :=
  ops.find? fun op => s.eligible t op && op.cls == k

theorem State.chooseFrom_eq (s : State) (ops : List Op) (t : Time) : s.chooseFrom ops t =
    match s.oldest ops t .urgent, s.oldest ops t .routine with
    | some u, some r => if 4 ≤ s.streak then some (r, 0) else some (u, s.streak + 1)
    | some u, none => some (u, 0)
    | none, some r => some (r, 0)
    | none, none => none := rfl

theorem State.oldest_some {s : State} {ops : List Op} {t : Time} {k : OpClass} {op : Op} :
    s.oldest ops t k = some op ↔ ∃ before after, ops = before ++ op :: after
      ∧ op.cls = k ∧ s.eligible t op = true ∧ ∀ o ∈ before, ¬(o.cls = k ∧ s.eligible t o = true) := by
  rw [State.oldest, List.find?_eq_some_iff_append]
  simp only [Bool.and_eq_true, beq_iff_eq, Bool.not_eq_true', Bool.and_eq_false_imp]
  constructor
  · rintro ⟨⟨able, cls⟩, before, after, rfl, none⟩
    refine ⟨before, after, rfl, cls, able, fun o ho both => ?_⟩
    have := none o ho both.2
    simp [both.1] at this
  · rintro ⟨before, after, rfl, cls, able, none⟩
    refine ⟨⟨able, cls⟩, before, after, rfl, fun o ho is => ?_⟩
    exact beq_eq_false_iff_ne.mpr fun same => none o ho ⟨same, is⟩

theorem State.oldest_none {s : State} {ops : List Op} {t : Time} {k : OpClass} :
    s.oldest ops t k = none ↔ ∀ o ∈ ops, ¬(o.cls = k ∧ s.eligible t o = true) := by
  rw [State.oldest, List.find?_eq_none]
  simp only [Bool.and_eq_true, beq_iff_eq, and_comm]

/-! ## Eligibility (09 R172) -/

theorem State.quietOf_le {s : State} {c : Col} {t : Time} :
    s.quietOf c ≤ t ↔ ∀ q, (s.column c).quiet = some q → q ≤ t := by
  unfold State.quietOf
  cases (s.column c).quiet <;> simp

theorem foldl_max_le {α : Type} (f : α → Nat) (as : List α) (b t : Nat) :
    as.foldl (fun m a => max m (f a)) b ≤ t ↔ b ≤ t ∧ ∀ a ∈ as, f a ≤ t := by
  induction as generalizing b with
  | nil => simp
  | cons a as ih => simp [ih, and_assoc]

theorem State.quietOfAll_le {s : State} {t : Time} : s.quietOfAll ≤ t ↔ ∀ c, s.quietOf c ≤ t := by
  rw [State.quietOfAll, foldl_max_le]
  simp [allCols]

theorem State.eligible_iff (s : State) (t : Time) (op : Op) : s.eligible t op = true ↔
    op.inFlight = false ∧ s.admissible op = true ∧ s.readyAt op ≤ t := by
  simp [State.eligible, and_assoc]

section

variable {s : State} {op : Op}

theorem State.admissible_poll (poll : op.origin = .poll) : s.admissible op = true ∧ s.readyAt op = op.notBefore := by
  simp [State.admissible, State.readyAt, poll]

theorem State.admissible_walk (other : op.origin ≠ .poll) {w : Walk} (mode : op.mode = .walk w) :
    s.admissible op = true ∧ s.readyAt op = max op.notBefore (s.quietOf w.here) := by
  cases origin : op.origin with
  | poll => exact absurd origin other
  | _ => exact ⟨by simp only [State.admissible, origin, mode], by simp only [State.readyAt, origin, mode]⟩

variable (other : op.origin ≠ .poll) (mode : op.mode.isWalk = false)
include other mode

theorem State.admissible_all (dest : op.dest = .all) :
    s.admissible op = (allCols.all fun c => !(s.column c).walkPending)
      ∧ s.readyAt op = max op.notBefore s.quietOfAll := by
  cases origin : op.origin with
  | poll => exact absurd origin other
  | _ =>
    cases kind : op.mode with
    | walk w => rw [kind] at mode; cases mode
    | _ => exact ⟨by simp only [State.admissible, origin, kind, dest], by simp only [State.readyAt, origin, kind, dest]⟩

theorem State.admissible_column {c : Col} (dest : op.dest = .column c) :
    s.admissible op = (!(s.column c).walkPending
        && ((s.column c).state.reachable
          || ((s.column c).state == .service && op.origin == .pass
            && (s.filterOf op.kind).action == .passInService)))
      ∧ s.readyAt op = max op.notBefore (s.quietOf c) := by
  cases origin : op.origin with
  | poll => exact absurd origin other
  | _ =>
    cases kind : op.mode with
    | walk w => rw [kind] at mode; cases mode
    | _ => exact ⟨by simp only [State.admissible, origin, kind, dest], by simp only [State.readyAt, origin, kind, dest]⟩

end

theorem State.passInService_iff (s : State) (kind : Byte) : (s.filterOf kind).action = .passInService ↔
    ∃ k, filterIndex kind = some k ∧ (s.filter.get k).action = .passInService := by
  cases found : filterIndex kind with
  | none => simp [State.filterOf, found]
  | some k => simp [State.filterOf, found]

/-- Settles O53. -/
theorem schedulerChoosesByClassAndAge : Obligations.SchedulerChoosesByClassAndAge := by
  refine ⟨fun s t => ?choice, fun s t op => ?eligible⟩
  case choice =>
    intro oldest nothing
    have some_ {k : OpClass} {op : Op} (h : oldest k op) : s.oldest s.ops t k = some op := State.oldest_some.mpr h
    have none_ {k : OpClass} (h : nothing k) : s.oldest s.ops t k = none := State.oldest_none.mpr h
    refine ⟨fun u r urgent routine => ?_, fun u urgent noRoutine => ?_, fun r noUrgent routine => ?_,
      fun noUrgent noRoutine => ?_⟩
    · rw [State.choose, State.chooseFrom_eq, some_ urgent, some_ routine]
    · rw [State.choose, State.chooseFrom_eq, some_ urgent, none_ noRoutine]
    · rw [State.choose, State.chooseFrom_eq, none_ noUrgent, some_ routine]
    · rw [State.choose, State.chooseFrom_eq, none_ noUrgent, none_ noRoutine]
  case eligible =>
    intro passed basic able other
    have passed_iff (c : Col) : s.quietOf c ≤ t ↔ passed c := State.quietOf_le
    refine ⟨fun poll => ?_, fun w notPoll mode => ?_, fun isOther dest => ?_, fun c isOther dest => ?_⟩
    · obtain ⟨admits, ready⟩ := State.admissible_poll (s := s) poll
      simp only [able, basic, State.eligible_iff, admits, ready, true_and]
    · obtain ⟨admits, ready⟩ := State.admissible_walk (s := s) notPoll mode
      simp only [able, basic, State.eligible_iff, admits, ready, true_and, max_le_iff, passed_iff, and_assoc]
    · obtain ⟨notPoll, mode⟩ := isOther
      obtain ⟨admits, ready⟩ := State.admissible_all (s := s) notPoll mode dest
      simp only [able, basic, State.eligible_iff, admits, ready, max_le_iff, State.quietOfAll_le, passed_iff, allCols,
        List.all_eq_true, List.mem_finRange, Bool.not_eq_true', true_implies, forall_and]
      constructor
      · rintro ⟨idle, unwalked, due, quiet⟩
        exact ⟨⟨idle, due⟩, unwalked, quiet⟩
      · rintro ⟨⟨idle, due⟩, unwalked, quiet⟩
        exact ⟨idle, unwalked, due, quiet⟩
    · obtain ⟨notPoll, mode⟩ := isOther
      obtain ⟨admits, ready⟩ := State.admissible_column (s := s) notPoll mode dest
      have near : (s.column c).state.reachable = true
          ↔ (∃ u, (s.column c).state = .settling u) ∨ (s.column c).state = .active := by
        cases (s.column c).state <;> simp [ColState.reachable]
      simp only [able, basic, State.eligible_iff, admits, ready, max_le_iff, passed_iff, Bool.and_eq_true,
        Bool.or_eq_true, Bool.not_eq_true', beq_iff_eq, State.passInService_iff, near, and_assoc, or_assoc]
      constructor
      · rintro ⟨idle, unwalked, reach, due, quiet⟩
        exact ⟨idle, due, quiet, unwalked, reach⟩
      · rintro ⟨idle, due, quiet, unwalked, reach⟩
        exact ⟨idle, unwalked, reach, due, quiet⟩

end Sys2Proof.Machine
end

section
/-! The port's grant (09 R169, R173 to R175; 08 R148). -/

-- The declarations are elaborated one after another, which bounds the memory that their checks take at one time.
set_option Elab.async false

namespace Sys2Proof.Machine

open Config

/-! ## The moment of the grant (09 R174) -/

theorem foldl_min_le (ts : List Time) (t u : Time) : ts.foldl min t ≤ u ↔ ∃ x ∈ t :: ts, x ≤ u := by
  induction ts generalizing t with
  | nil => simp
  | cons x ts ih => simp [ih, or_assoc]

theorem State.portFreeAt_le {s : State} {u : Time} : s.portFreeAt ≤ u ↔ ∀ r, s.released = some r → r + 200 ≤ u := by
  unfold State.portFreeAt
  cases s.released with
  | none => simp
  | some r => simp [turnaround]

/-- The moments at which the operations that wait only for time come of age. -/
def State.readyTimes (s : State) : List Time :=
  (s.ops.filter fun op => !op.inFlight && s.admissible op).map s.readyAt

theorem State.exists_eligible {s : State} {u : Time} :
    (∃ op ∈ s.ops, s.eligible u op = true) ↔ ∃ x ∈ s.readyTimes, x ≤ u := by
  simp only [State.readyTimes, State.eligible_iff, List.mem_map, List.mem_filter, Bool.and_eq_true, Bool.not_eq_true']
  constructor
  · rintro ⟨op, hop, idle, admits, due⟩
    exact ⟨_, ⟨op, ⟨hop, idle, admits⟩, rfl⟩, due⟩
  · rintro ⟨_, ⟨op, ⟨hop, idle, admits⟩, rfl⟩, due⟩
    exact ⟨op, hop, idle, admits, due⟩

theorem State.firstMoment_busy {s : State} (busy : s.exchange ≠ none) : s.firstMoment = none := by
  obtain ⟨x, hx⟩ := Option.ne_none_iff_exists'.mp busy
  simp only [State.firstMoment, hx]

theorem State.firstMoment_idle {s : State} (idle : s.exchange = none) : s.firstMoment =
    match s.readyTimes with
    | [] => none
    | t :: ts => some (max (max s.now s.portFreeAt) (ts.foldl min t)) := by
  rw [State.firstMoment, idle, ← State.readyTimes]
  cases s.readyTimes <;> rfl

/-- At moment `u`, now or later, the line has been released long enough and an operation is eligible. -/
def State.portFree (s : State) (u : Time) : Prop :=
  s.now ≤ u ∧ (∀ r, s.released = some r → r + 200 ≤ u) ∧ ∃ op ∈ s.ops, s.eligible u op = true

theorem State.firstMoment_iff (s : State) (t : Time) : s.firstMoment = some t ↔
    s.exchange = none ∧ s.portFree t ∧ ∀ u, s.portFree u → t ≤ u := by
  by_cases idle : s.exchange = none
  case neg => simp [State.firstMoment_busy idle, idle]
  have free_iff (u : Time) : s.portFree u ↔ max s.now s.portFreeAt ≤ u ∧ ∃ x ∈ s.readyTimes, x ≤ u := by
    rw [State.portFree, State.exists_eligible, max_le_iff, State.portFreeAt_le, and_assoc]
  simp only [State.firstMoment_idle idle, free_iff, idle, true_and]
  cases s.readyTimes with
  | nil => simp
  | cons x xs =>
    simp only [← foldl_min_le, ← max_le_iff, Option.some.injEq]
    constructor
    · rintro rfl
      exact ⟨le_rfl, fun _ => id⟩
    · rintro ⟨free, first⟩
      exact le_antisymm (first _ le_rfl) free |>.symm ▸ rfl

theorem State.reach_firstMoment {s : State} {t : Time} (first : s.firstMoment = some t) :
    s.reach t = { s with now := t } := by
  obtain ⟨_, ⟨later, _⟩, _⟩ := (s.firstMoment_iff t).mp first
  rw [State.reach, max_eq_right later]

/-! ## The choices of one grant (09 R169, R175) -/

/-- The operations of a list left when those of `gone` are taken away by their tags. -/
def leftAfter (ops gone : List Op) : List Op := ops.filter fun o => !(gone.map Op.tag).contains o.tag

theorem leftAfter_nil (ops : List Op) : leftAfter ops [] = ops := by simp [leftAfter]

theorem leftAfter_cons (ops : List Op) (f : Op) (gone : List Op) :
    leftAfter ops (f :: gone) = leftAfter (ops.filter fun o => o.tag != f.tag) gone := by
  simp only [leftAfter, List.filter_filter]
  refine List.filter_congr fun o _ => ?_
  rw [List.map_cons, List.contains_cons, Bool.not_or, Bool.and_comm]
  rfl

theorem State.removeOps_reverse (s : State) (gone : List Op) :
    s.removeOps (gone.map Op.tag).reverse = { s with ops := leftAfter s.ops gone } := by
  simp [State.removeOps, leftAfter]

theorem State.chooseFrom_mem {s : State} {ops : List Op} {t : Time} {op : Op} {k : Nat}
    (chosen : s.chooseFrom ops t = some (op, k)) : op ∈ ops := by
  have mem {c : OpClass} {o : Op} (h : s.oldest ops t c = some o) : o ∈ ops := List.mem_of_find?_eq_some h
  rw [State.chooseFrom_eq] at chosen
  split at chosen
  next hu hr =>
    split at chosen
    · cases chosen; exact mem hr
    · cases chosen; exact mem hu
  next hu _ => cases chosen; exact mem hu
  next hr => cases chosen; exact mem hr
  next => cases chosen

/-- FETCHes chosen one after the other with fewer than 4 free entries. -/
def State.pauses (s : State) (left gone : List Op) : Prop :=
  ∀ n f, gone[n]? = some f → f.origin = .fetch ∧ s.freeEntries < 4
    ∧ ∃ k, s.chooseFrom (leftAfter left (gone.take n)) s.now = some (f, k)

theorem State.pauses_cons {s : State} {left gone : List Op} {f : Op} (paused : s.pauses left (f :: gone)) :
    (f.origin = .fetch ∧ s.freeEntries < 4 ∧ ∃ k, s.chooseFrom left s.now = some (f, k))
      ∧ s.pauses (left.filter fun o => o.tag != f.tag) gone := by
  refine ⟨by simpa only [List.take_zero, leftAfter_nil] using paused 0 f rfl, fun n g hg => ?_⟩
  have next := paused (n + 1) g hg
  rwa [List.take_succ_cons, leftAfter_cons] at next

/-- The scheduler passes over the FETCHes that pause; the fuel still covers the operations left. -/
theorem State.grant_pauses {s : State} {gone : List Op} {fuel : Nat} {left : List Op} (tags : List Nat)
    (fuels : left.length ≤ fuel) (paused : s.pauses left gone) :
    ∃ rest, (leftAfter left gone).length ≤ rest
      ∧ State.grant fuel s left tags = State.grant rest s (leftAfter left gone) ((gone.map Op.tag).reverse ++ tags) := by
  induction gone generalizing fuel left tags with
  | nil => exact ⟨fuel, by rwa [leftAfter_nil], by rw [leftAfter_nil]; rfl⟩
  | cons f gone ih =>
    obtain ⟨⟨fetch, few, k, chosen⟩, later⟩ := State.pauses_cons paused
    have shorter : (left.filter fun o => o.tag != f.tag).length < left.length :=
      List.length_filter_lt_length_iff_exists.mpr ⟨f, State.chooseFrom_mem chosen, by simp⟩
    obtain ⟨n, rfl⟩ : ∃ n, fuel = n + 1 := ⟨fuel - 1, by omega⟩
    obtain ⟨rest, covers, same⟩ := ih (fuel := n) (f.tag :: tags) (by omega) later
    refine ⟨rest, by rwa [leftAfter_cons], ?_⟩
    rw [leftAfter_cons, List.map_cons, List.reverse_cons, List.append_assoc, List.singleton_append, ← same, State.grant]
    simp only [chosen, if_pos (And.intro fetch few)]

theorem State.grant_none {s : State} {left : List Op} (fuel : Nat) (tags : List Nat)
    (nothing : s.chooseFrom left s.now = none) : State.grant fuel s left tags = s.removeOps tags := by
  cases fuel with
  | zero => rfl
  | succ n => simp only [State.grant, nothing]

theorem State.grant_some {s : State} {left : List Op} {fuel : Nat} {op : Op} {k : Nat} (tags : List Nat)
    (fuels : left.length ≤ fuel) (chosen : s.chooseFrom left s.now = some (op, k))
    (starts : op.origin ≠ .fetch ∨ 4 ≤ s.freeEntries) :
    State.grant fuel s left tags = (State.startExchange { s with streak := k } op).removeOps tags := by
  have some_ := List.length_pos_of_mem (State.chooseFrom_mem chosen)
  obtain ⟨n, rfl⟩ : ∃ n, fuel = n + 1 := ⟨fuel - 1, by omega⟩
  have stays : ¬(op.origin = .fetch ∧ s.freeEntries < 4) := by
    rintro ⟨fetch, few⟩
    exact starts.elim (· fetch) (by omega)
  simp only [State.grant, chosen, if_neg stays]

/-! ## The request (08 R148, R157, R158) -/

theorem Op.request_plain {op : Op} (walk : op.mode.isWalk = false) (counted : ∀ n, op.mode ≠ .counted n) :
    op.request = ⟨op.dest.station, 0#4, op.kind, op.body⟩ := by
  rw [Op.request, Op.requestBody]
  cases mode : op.mode with
  | walk w => rw [mode] at walk; cases walk
  | counted n => exact absurd mode (counted n)
  | _ => rfl

theorem Op.request_walk {op : Op} {w : Walk} (mode : op.mode = .walk w) :
    op.request = ⟨op.dest.station, 0#4, op.kind, [BitVec.ofNat 8 (w.pos.val + 1)]⟩ := by
  rw [Op.request, Op.requestBody, mode]
  exact congrArg _ (u8_eq _)

theorem Op.request_counted {op : Op} {n : Nat} {count item : Byte} {items : List Byte} (mode : op.mode = .counted n)
    (body : op.body = count :: items) (item_ : items[n]? = some item) :
    op.request = ⟨op.dest.station, 0#4, op.kind, item :: items⟩ := by
  simp [Op.request, Op.requestBody, mode, body, item_]

theorem Dest.station_eq (d : Dest) : d.station =
    match d with | .column c => BitVec.ofNat 4 (c.val + 1) | .all => 15#4 := by
  cases d <;> rfl

/-- CP_DE asks the exchange and the time alone. -/
theorem State.driverEnable_iff (s : State) : s.driverEnable = true ↔
    ∃ x, s.exchange = some x ∧ (x.stage = .awaiting ∨ x.stage = .broadcast ∨ x.stage = .slots)
      ∧ s.now < x.requestEnd := by
  unfold State.driverEnable
  cases s.exchange with
  | none => simp
  | some x => cases h : x.stage <;> simp [ExStage.sends, h]

theorem Op.firstStage_sends (op : Op) : op.firstStage.sends = true := by
  unfold Op.firstStage
  split <;> rfl

theorem State.transmit_exchange (s : State) : s.transmit.exchange = s.exchange := by
  unfold State.transmit State.fillGap
  repeat' split
  all_goals rfl

theorem State.transmit_driverEnable (s : State) (v : Time) :
    State.driverEnable { s.transmit with now := v } = State.driverEnable { s with now := v } := by
  unfold State.driverEnable
  rw [show State.exchange { s.transmit with now := v } = State.exchange { s with now := v } from s.transmit_exchange]

/-! ## PORT_GRANT (09 R173) -/

/-- The state in which `op` is granted the port at moment `t`, without the operations of `gone`. -/
def State.started (s : State) (t : Time) (gone : List Op) (op : Op) (k : Nat) : State :=
  State.removeOps (State.startExchange { s with now := t, streak := k } op) (gone.map Op.tag).reverse

theorem State.started_ops (s : State) (t : Time) (gone : List Op) (op : Op) (k : Nat) :
    (s.started t gone op k).ops =
      (leftAfter s.ops gone).map fun o => if o.tag = op.tag then { o with inFlight := true } else o := by
  rw [State.started, State.removeOps_reverse]
  simp only [leftAfter, State.startExchange, State.updateOp, List.filter_map]
  congr 1
  refine List.filter_congr fun o _ => ?_
  simp only [Function.comp_apply]
  split <;> rfl

theorem State.portGrant_of {s : State} {t : Time} {gone : List Op} (first : s.firstMoment = some t)
    (paused : State.pauses { s with now := t } s.ops gone) :
    (s.chooseFrom (leftAfter s.ops gone) t = none → s.portGrant = { s with now := t, ops := leftAfter s.ops gone })
      ∧ ∀ op k, s.chooseFrom (leftAfter s.ops gone) t = some (op, k) → op.origin ≠ .fetch ∨ 4 ≤ s.freeEntries →
          s.portGrant = s.started t gone op k := by
  obtain ⟨rest, covers, same⟩ := State.grant_pauses [] le_rfl paused
  have granted : s.portGrant = State.grant rest { s with now := t } (leftAfter s.ops gone) (gone.map Op.tag).reverse := by
    simp only [State.portGrant, first, State.reach_firstMoment first, same, List.append_nil]
  refine ⟨fun nothing => ?_, fun op k chosen starts => ?_⟩
  · rw [granted, State.grant_none _ _ nothing, State.removeOps_reverse]
  · exact granted.trans (State.grant_some (s := { s with now := t }) _ covers chosen starts)

/-- Settles O54. -/
theorem portGrantStartsTheExchange : Obligations.PortGrantStartsTheExchange := by
  refine ⟨fun s running => ⟨fun stays => ?_, ?grant⟩, State.firstMoment_iff, fun op => ?request,
    State.driverEnable_iff⟩
  · have nothing : s.firstMoment = none := stays.elim State.firstMoment_busy id
    rw [exec_portGrant running, State.portGrant, nothing]
  case grant =>
    intro t gone first without sent starts paused
    obtain ⟨nothing, granted⟩ := State.portGrant_of first paused
    refine ⟨fun none_ => (exec_portGrant running).trans (congrArg _ (congrArg _ (nothing none_))),
      fun op k chosen free => ⟨?_, fun v => ?_⟩⟩
    · have same : s.started t gone op k = starts op k :=
        congrArg (fun ops => { starts op k with ops }) (s.started_ops t gone op k)
      exact (exec_portGrant running).trans (congrArg _ (congrArg _ ((granted op k chosen free).trans same)))
    · rw [State.transmit_driverEnable]
      exact (congrArg (· && decide (v < sent op)) op.firstStage_sends).trans (Bool.true_and _)
  case request =>
    intro to_ sends
    have station : op.dest.station = to_ := op.dest.station_eq
    have sends_iff {body : List Byte} (h : op.request = ⟨op.dest.station, 0#4, op.kind, body⟩) : sends body :=
      h.trans (congrArg (fun d => Frame.mk d 0#4 op.kind body) station)
    refine ⟨fun mode => sends_iff (Op.request_plain ?_ fun n counted => ?_),
      fun w mode => sends_iff (Op.request_walk mode),
      fun n count items item mode body item_ => sends_iff (Op.request_counted mode body item_),
      fun c dest => ?_, fun dest => ?_⟩
    · rcases mode with h | ⟨_, _, h⟩ | ⟨_, h⟩ <;> rw [h] <;> rfl
    · rw [counted] at mode
      simp at mode
    · rw [Op.firstStage, dest]
    · rw [Op.firstStage, dest]
      cases op.origin <;> rfl

end Sys2Proof.Machine
end

section
/-! What a silent exchange leaves as it is, whatever its outcome does. -/

-- The declarations are elaborated one after another, which bounds the memory that their checks take at one time.
set_option Elab.async false

namespace Sys2Proof.Machine

open Config

/-- `t` has the time of `s`, its line, the quiet until of its columns and its count of silent exchanges; the exchange
in flight may have been marked. -/
structure State.LineKept (s t : State) : Prop where
  now : t.now = s.now
  released : t.released = s.released
  quiet : ∀ c, (t.column c).quiet = (s.column c).quiet
  silent : t.counters.silent = s.counters.silent
  idle : t.exchange = none ↔ s.exchange = none

theorem State.LineKept.refl (s : State) : s.LineKept s := ⟨rfl, rfl, fun _ => rfl, rfl, .rfl⟩

theorem State.LineKept.trans {s t u : State} (h : s.LineKept t) (k : t.LineKept u) : s.LineKept u where
  now := k.now.trans h.now
  released := k.released.trans h.released
  quiet c := (k.quiet c).trans (h.quiet c)
  silent := k.silent.trans h.silent
  idle := k.idle.trans h.idle

theorem State.MealActs.lineKept {s t : State} (h : s.MealActs t) : s.LineKept t where
  now := by rw [h.outside]
  released := by rw [h.outside]
  quiet c := by rw [h.outside]; rfl
  silent := h.silent
  idle := by rw [h.outside]

theorem State.queueNotice_lineKept (s : State) (n : Notice) : s.LineKept (s.queueNotice n) :=
  (s.queueNotice_mealActs n).lineKept

theorem State.enqueue_lineKept (s : State) (op : Op) : s.LineKept (s.enqueue op) := by
  unfold State.enqueue
  split
  · exact ⟨rfl, rfl, fun _ => rfl, rfl, .rfl⟩
  · exact .refl s

theorem State.setColumn_lineKept (s : State) (c : Col) {v : Column} (quiet : v.quiet = (s.column c).quiet) :
    s.LineKept (s.setColumn c v) where
  now := rfl
  released := rfl
  quiet k := by
    rw [State.column_setColumn]
    split
    · next same => rw [quiet, same]
    · rfl
  silent := rfl
  idle := .rfl

/-! ## A column leaves reach (09 R176) -/

theorem State.changeState_lineKept (s : State) (c : Col) (st : ColState) : s.LineKept (s.changeState c st) := by
  unfold State.changeState
  dsimp only
  split
  · exact s.setColumn_lineKept c rfl
  · split
    · exact s.setColumn_lineKept c rfl
    · exact s.setColumn_lineKept c rfl

theorem State.cancelOne_lineKept (s : State) (op : Op) : s.LineKept (s.cancelOne op) :=
  State.LineKept.trans (t := s.without [op]) ⟨rfl, rfl, fun _ => rfl, rfl, .rfl⟩ (s.cancelOne_acts op).1.lineKept

theorem State.leaveReach_lineKept (s : State) (c : Col) : s.LineKept (s.leaveReach c) := by
  have fold (ops : List Op) (u : State) : u.LineKept (ops.foldl State.cancelOne u) := by
    induction ops generalizing u with
    | nil => exact .refl u
    | cons op ops ih => exact (u.cancelOne_lineKept op).trans (ih _)
  refine State.LineKept.trans ?_ (fold _ _)
  exact ⟨rfl, rfl, fun _ => rfl, rfl, Option.map_eq_none_iff⟩

theorem State.enterLost_lineKept (s : State) (c : Col) : s.LineKept (s.enterLost c) :=
  (((s.setColumn_lineKept c (by rfl)).trans (State.changeState_lineKept _ c .lost)).trans
    (State.queueNotice_lineKept _ _)).trans (State.leaveReach_lineKept _ c)

theorem State.silenceOf_lineKept (s : State) (c : Col) : s.LineKept (s.silenceOf c) := by
  unfold State.silenceOf
  dsimp only
  split
  case h_4 | h_5 | h_6 => exact .refl s
  all_goals
    split
    · exact s.enterLost_lineKept c
    · exact s.setColumn_lineKept c rfl

/-! ## An unlatch that fails (02 R38, 03 R66) -/

theorem State.queueAbort_lineKept (s : State) (l : LockerId) (walkStep : Bool) :
    s.LineKept (s.queueAbort l walkStep) := by
  unfold State.queueAbort
  split
  · exact .refl s
  · split
    · exact s.enqueue_lineKept _
    · exact .refl s

theorem State.tamperOccupied_lineKept (s : State) (l : LockerId) (fault : LockerFault) :
    s.LineKept (s.tamperOccupied l fault) := by
  unfold State.tamperOccupied
  split
  · exact ⟨rfl, rfl, fun _ => rfl, rfl, .rfl⟩
  · exact .refl s

theorem State.faultEntry_mealActs (s : State) (i : Slot) (fault : LockerFault) : s.MealActs (s.faultEntry i fault) := by
  unfold State.faultEntry
  split
  · exact .refl s
  · split
    · exact (s.setEntry_mealActs i _).trans (State.windowDue_mealActs _ i)
    · exact s.endEntry_mealActs i _

theorem State.block_lineKept (s : State) (l : LockerId) (fault : LockerFault) : s.LineKept (s.block l fault) := by
  unfold State.block
  dsimp only
  refine State.LineKept.trans ?_ (State.queueNotice_lineKept _ _)
  have blocked := (s.enterLocker_mealActs l (.blocked fault (s.storedAtFault l fault))).lineKept.trans
    (State.tamperOccupied_lineKept _ l fault)
  have entry (u : State) (i : Option Slot) :
      u.LineKept (match i with | some i => u.faultEntry i fault | none => u) := by
    cases i with
    | none => exact .refl u
    | some i => exact (u.faultEntry_mealActs i fault).lineKept
  have after := blocked.trans (entry _ (s.locker l).state.slot)
  split
  · exact after.trans (State.queueAbort_lineKept _ l false)
  · exact after

theorem State.takeFault_lineKept (s : State) (l : LockerId) (fault : LockerFault) :
    s.LineKept (s.takeFault l fault) := by
  unfold State.takeFault
  split
  · exact .refl s
  · exact s.tamperOccupied_lineKept l fault
  all_goals exact s.block_lineKept l fault

theorem State.showIfReachable_lineKept (s : State) (c : Col) (side : Side) (m : Message) :
    s.LineKept (s.showIfReachable c side m) := by
  unfold State.showIfReachable
  split
  · exact s.enqueue_lineKept _
  · exact .refl s

theorem State.unlatchFailed_lineKept (s : State) (l : LockerId) (origin : Origin) :
    s.LineKept (s.unlatchFailed l origin) := by
  refine (s.takeFault_lineKept l .latch).trans ?_
  unfold State.unlatchFailed
  dsimp only
  split
  · refine State.LineKept.trans ?_ (State.showIfReachable_lineKept _ _ _ _)
    exact ⟨rfl, rfl, fun _ => rfl, rfl, .rfl⟩
  · exact State.showIfReachable_lineKept _ _ _ _

/-! ## SILENT ends an operation (08 R154 to R158) -/

theorem State.deliverAt_silent_lineKept (s : State) (op : Op) (l : LockerId) :
    s.LineKept (s.deliverAt op l .silent) := by
  have unlatch (origin : Origin) (slot : Option Slot) : s.LineKept (s.unlatchOutcome l origin slot .silent) := by
    unfold State.unlatchOutcome
    split
    · exact s.unlatchFailed_lineKept l origin
    · exact .refl s
  unfold State.deliverAt
  split
  · exact unlatch _ _
  · exact unlatch _ _
  · exact unlatch _ _
  · split <;> exact .refl s
  all_goals exact .refl s

theorem State.deliver_silent_lineKept (s : State) (op : Op) : s.LineKept (s.deliver op .silent) := by
  unfold State.deliver
  split
  · unfold State.passOutcome
    split
    · exact .refl s
    · rw [State.passAnswer_eq]
      exact ⟨rfl, rfl, fun _ => rfl, rfl, .rfl⟩
  · split
    · exact (s.blindPeriod_mealActs _).lineKept
    · exact .refl s
  case h_7 | h_8 | h_9 | h_10 => exact .refl s
  all_goals
    split
    · exact s.deliverAt_silent_lineKept op _
    · exact .refl s

theorem State.endOp_silent_lineKept (s : State) (op : Op) : s.LineKept (s.endOp op .silent) :=
  (s.deliver_silent_lineKept op).trans ⟨rfl, rfl, fun _ => rfl, rfl, .rfl⟩

theorem State.partState_silent_lineKept (s : State) (c : Col) : s.LineKept (s.partState c .silent) := by
  have absent (u : State) (ps : List Pos) : u.MealActs (ps.foldl (fun s q => s.reconcileAbsent (lockerAt c q)) u) := by
    induction ps generalizing u with
    | nil => exact .refl u
    | cons p ps ih => exact (u.reconcileAbsent_mealActs _).trans (ih _)
  cases state : (s.column c).state with
  | unseen =>
    simp only [State.partState, state]
    exact (((s.changeState_lineKept c .absent).trans (State.queueNotice_lineKept _ _)).trans
      (State.leaveReach_lineKept _ c)).trans (State.absentFrom_mealActs _ c 0).lineKept
  | absent => simp only [State.partState, state]; exact .refl s
  | lost => simp only [State.partState, state]; exact .refl s
  | _ => simp only [State.partState, state]; exact s.enterLost_lineKept c

theorem State.endPart_silent_lineKept (s : State) (tag : Nat) (c : Col) : s.LineKept (s.endPart tag c .silent) := by
  have offer (u : State) : u.LineKept (u.offerFetch c) := by
    unfold State.offerFetch
    split
    · exact u.enqueue_lineKept _
    · exact .refl u
  unfold State.endPart
  dsimp only
  refine (s.partState_silent_lineKept c).trans (State.LineKept.trans ?_ (offer _))
  split
  · exact .refl _
  · exact State.setColumn_lineKept _ c rfl

theorem State.moveWalk_lineKept (s : State) (tag : Nat) (cause : WalkCause) (next : Option Walk) :
    s.LineKept (s.moveWalk tag cause next) := by
  have started (u : State) : u.LineKept u.noteWalkEnded := by
    refine State.LineKept.trans (t := { u with walkEnded := true }) ⟨rfl, rfl, fun _ => rfl, rfl, .rfl⟩ ?_
    unfold State.noteWalkEnded State.startIfReady
    split
    · refine State.LineKept.trans ?_ (State.queueNotice_lineKept _ _)
      exact ⟨rfl, rfl, fun _ => rfl, rfl, .rfl⟩
    · exact .refl _
  have dropped (u : State) : u.LineKept (u.removeOp tag) := ⟨rfl, rfl, fun _ => rfl, rfl, .rfl⟩
  cases next with
  | some w => exact ⟨rfl, rfl, fun _ => rfl, rfl, .rfl⟩
  | none =>
    cases cause with
    | initial => exact ((s.queueNotice_lineKept _).trans (started _)).trans (dropped _)
    | rollCall => exact (s.queueNotice_lineKept _).trans (dropped _)
    | returning => exact dropped s

theorem State.applyMode_silent_lineKept (s : State) (op : Op) (c : Col) (left : Bool) :
    s.LineKept (s.applyMode op c left .silent) := by
  unfold State.applyMode
  split
  case h_5 => exact (s.endPart_silent_lineKept _ _).trans (State.moveWalk_lineKept _ _ _ _)
  all_goals exact s.endOp_silent_lineKept op

end Sys2Proof.Machine
end

section
/-! Tries and their ends (08 R150, R151). -/

-- The declarations are elaborated one after another, which bounds the memory that their checks take at one time.
set_option Elab.async false

namespace Sys2Proof.Machine

open Config

/-- The first element that passes a test stays the first where the list keeps it. -/
theorem find?_filter_of_pos {α : Type} {p q : α → Bool} {as : List α} {a : α} (found : as.find? q = some a)
    (stays : p a = true) : (as.filter p).find? q = some a := by
  rw [List.find?_filter, List.find?_eq_some_iff_append] at *
  obtain ⟨holds, before, after, rfl, none⟩ := found
  refine ⟨by simp [stays, holds], before, after, rfl, fun b hb => ?_⟩
  have := none b hb
  simp_all

/-! ## The third try ends SILENT (08 R150, R151; 10 R182) -/

theorem State.endTry_third {v : State} {x : Exchange} (c : Col) (stands : x.abandoned = false) (third : 3 ≤ x.tryNo) :
    v.endTry x c = v.countSilent.endExchange x c .silent := by
  simp [State.endTry, stands, not_lt.mpr third]

/-- The operation `op` takes SILENT in the state `u` that the count of the silence has left of `v`. -/
def State.takesSilent (v u : State) (c : Col) (op : Op) (left : Bool) : State :=
  State.applyMode
    { u with
      exchange := none, released := some v.now, columnRx := .hunting, reserve := 0
      columns := u.columns.set c { u.column c with quiet := some (v.now + 10000) } } op c left .silent

section

variable {v u : State} {x : Exchange} {c : Col} {op : Op} (stands : x.abandoned = false) (third : 3 ≤ x.tryNo)
include stands third

theorem State.endTry_takesSilent {left : Bool} (told : v.countSilent.silenceOf c = u)
    (marked : (u.exchange.map Exchange.leftReach).getD false = left) (now : u.now = v.now)
    (found : u.opOf x.tag = some op) : v.endTry x c = v.takesSilent u c op left := by
  have stays : ¬x.abandoned = true := by rw [stands]; nofun
  have line : (u.clearLine.setQuiet c).opOf x.tag = some op := found
  rw [State.endTry_third c stands third, State.endExchange, if_neg stays]
  simp only [State.reportResult, told, marked, line, State.takesSilent, ← now]
  rfl

variable (hx : v.exchange = some x) (found : v.opOf x.tag = some op)
include hx found

theorem State.endTry_still (still : ¬((v.column c).state.reachable = true ∨ (v.column c).state = .service)) :
    v.endTry x c = v.takesSilent v.countSilent c op x.leftReach :=
  State.endTry_takesSilent stands third (State.silenceOf_still (s := v.countSilent) still)
    (congrArg (fun e => (e.map Exchange.leftReach).getD false) hx) rfl found

section

variable (counts : (v.column c).state.reachable = true ∨ (v.column c).state = .service)
include counts

theorem State.endTry_few (few : (v.column c).silence < 2) :
    v.endTry x c = v.takesSilent
      (v.countSilent.setColumn c { v.column c with silence := (v.column c).silence + 1 }) c op x.leftReach := by
  have told := (State.silenceOf_counts (s := v.countSilent) counts).trans
    (if_neg (show ¬3 ≤ (v.column c).silence + 1 by omega))
  exact State.endTry_takesSilent stands third told
    (congrArg (fun e => (e.map Exchange.leftReach).getD false) hx) rfl found

theorem State.endTry_many (many : 2 ≤ (v.column c).silence) (law : v.QueueLaw) (flies : op.inFlight = true)
    (dest : x.dest = .column c) :
    LeavesReach
        ((v.countSilent.setColumn c { v.column c with silence := 3, state := .lost }).queueNotice (.columnState c .lost))
        (v.countSilent.enterLost c) c
      ∧ v.endTry x c = v.takesSilent (v.countSilent.enterLost c) c op true := by
  have leaves : LeavesReach _ (v.countSilent.enterLost c) c :=
    State.enterLost_leaves (s := v.countSilent) law (ColState.present_of_counting counts)
  have told := (State.silenceOf_counts (s := v.countSilent) counts).trans
    (if_pos (show 3 ≤ (v.column c).silence + 1 by omega))
  refine ⟨leaves, State.endTry_takesSilent stands third told ?_ ?_ ?_⟩
  · have exchange := congrArg State.exchange leaves.1
    rw [exchange]
    simp [State.countSilent, hx, dest]
  · exact (State.enterLost_lineKept v.countSilent c).now
  · have ops := congrArg State.ops leaves.1
    rw [State.opOf, ops]
    refine find?_filter_of_pos ?_ (by simp [flies])
    simpa [State.countSilent] using (show v.ops.find? (fun o => o.tag == x.tag) = some op from found)

end

end

/-- Whatever the operation does with it, a third silent try ends the exchange (08 R150, R151). -/
theorem State.endTry_third_line {v : State} {x : Exchange} (c : Col) (stands : x.abandoned = false)
    (third : 3 ≤ x.tryNo) :
    (v.endTry x c).exchange = none ∧ (v.endTry x c).now = v.now ∧ (v.endTry x c).released = some v.now
      ∧ ((v.endTry x c).column c).quiet = some (v.now + 10000)
      ∧ (v.endTry x c).counters.silent = min 4294967295 (v.counters.silent + 1) := by
  have stays : ¬x.abandoned = true := by rw [stands]; nofun
  have told := v.countSilent.silenceOf_lineKept c
  let off : State := (v.countSilent.silenceOf c).clearLine.setQuiet c
  have kept : off.LineKept (v.endTry x c) := by
    rw [State.endTry_third c stands third, State.endExchange, if_neg stays]
    dsimp only
    split
    · exact .refl _
    · exact State.applyMode_silent_lineKept _ _ _ _
  have quiet : (off.column c).quiet = some ((v.countSilent.silenceOf c).now + 10000) := by
    show (State.column (State.setColumn _ c _) c).quiet = _
    rw [State.column_setColumn, if_pos rfl]
    rfl
  refine ⟨kept.idle.mpr rfl, kept.now.trans told.now, kept.released.trans (congrArg some told.now),
    (kept.quiet c).trans (quiet.trans ?_), kept.silent.trans told.silent⟩
  rw [told.now]
  rfl

/-! ## A window that closes, and the retry (08 R150) -/

theorem Receiver.busy_of_ne {r : Receiver} (begun : r ≠ .hunting) : r.busy = true := by
  cases r with
  | hunting => exact absurd rfl begun
  | assembling cs last => rfl

theorem State.tryTimeout_busy {s : State} {x : Exchange} {c : Col} (hx : s.exchange = some x)
    (dest : x.dest = .column c) (stage : x.stage = .awaiting) (begun : s.columnRx ≠ .hunting) :
    s.tryTimeout =
      { s with now := max s.now (x.requestEnd + 8000), exchange := some { x with stage := .closing } } := by
  conv_lhs => simp only [State.tryTimeout, hx, dest, stage]
  refine (if_pos ?_).trans ?_
  · exact Receiver.busy_of_ne begun
  · rw [← dest]
    rfl

/-- The state in which the request is sent again, the last try ended at `t`. -/
def State.sentAgain (s : State) (x : Exchange) (t : Time) : State :=
  { s with
    now := max s.now (t + 200)
    exchange := some
      { x with tryNo := x.tryNo + 1, stage := .awaiting
               requestEnd := max s.now (t + 200) + x.request.length * 10000000 / 115200 }
    columnRx := .hunting }

theorem State.retryNow_eq {s : State} {x : Exchange} {t : Time} (hx : s.exchange = some x)
    (stage : x.stage = .retryFrom t) : s.retryNow = s.sentAgain x t := by
  simp only [State.retryNow, hx, stage]
  rfl

theorem State.driverEnable_of {s : State} {x : Exchange} (hx : s.exchange = some x) (v : Time) :
    State.driverEnable { s with now := v } = (x.stage.sends && decide (v < x.requestEnd)) := by
  simp only [State.driverEnable, hx]

/-! ## A frame that ends the try (07 R135, 08 R150) -/

theorem State.FrameEndsTry.target {s : State} {x : Exchange} {c : Col} {cmd : Instr} {t : Time}
    (h : s.FrameEndsTry x c cmd t) : s.exchange = some x ∧ x.dest = .column c := by
  obtain ⟨_, ⟨⟨_, hx, dest, _⟩, _⟩ | ⟨_, hx, dest, _⟩, _⟩ := h
  · exact ⟨hx, dest⟩
  · exact ⟨hx, dest⟩

section

variable {s : State} {x : Exchange} {c : Col} {begun : List Byte} {last : Time} (running : s.held = false)
  (hx : s.exchange = some x) (dest : x.dest = .column c) (closing : x.stage = .closing)
  (assembling : s.columnRx = .assembling begun last)
include running hx dest closing assembling

theorem State.frameEndsTry_gap :
    s.FrameEndsTry x c (.characterGapTimeout .column []) (max s.now (last + 1000)) :=
  ⟨[], .inr ⟨running, hx, dest, closing, by rw [assembling]; rfl⟩, .inr (.inr ⟨rfl, begun, last, by rw [assembling]; rfl,
    rfl⟩)⟩

/-- The rest of a frame whose window closed upon it, and which is not the reply. -/
theorem exec_closing_corrupt {chars : List LineChar} {bytes : List Byte} (carries : Carries chars bytes)
    (heard : s.columnRx.hear .column chars = (.hunting, [.complete (begun ++ bytes)]))
    (other : x.accepts c (begun ++ bytes) = none) :
    exec (.columnFrameCorrupt chars) s =
      .next (State.transmit ((s.columnBroken (heardBy .column s.now chars)).endTry x c)) := by
  have listens : x.stage.listens = true := by rw [closing]; rfl
  rw [exec_columnFrameCorrupt running, State.columnChars_rest hx dest listens assembling carries heard,
    State.columnFound_other (s := { s with now := heardBy .column s.now chars, columnRx := .hunting }) hx dest listens
      other]
  simp [State.corruptFrame, closing]
  rfl

end

/-- Settles O55. -/
theorem triesEndAndAreRepeated : Obligations.TriesEndAndAreRepeated := by
  unfold Obligations.TriesEndAndAreRepeated
  intro endsSilent
  have silent {v : State} {x : Exchange} {c : Col} {out : Host.Outcome State Fault Refusal}
      (ends : out = .next (State.transmit (v.endTry x c))) (hx : v.exchange = some x) (dest : x.dest = .column c)
      (stands : x.abandoned = false) (third : 3 ≤ x.tryNo) : endsSilent v x c out := by
    unfold endsSilent
    intro col counts told op found ends_
    have same {u : State} {left : Bool} (h : v.endTry x c = v.takesSilent u c op left) : ends_ u left :=
      ends.trans (congrArg (fun w => Host.Outcome.next (State.transmit w)) h)
    refine ⟨fun still => ?_, fun counting few => same (State.endTry_few stands third hx found counting few),
      fun counting many law flies => ?_⟩
    · refine same ((State.endTry_still stands third hx found still).trans ?_)
      have unchanged : told (v.column c) = v.countSilent :=
        congrArg (fun columns => { v.countSilent with columns }) (v.columns.set_get c)
      rw [unchanged]
    · obtain ⟨leaves, h⟩ := State.endTry_many stands third hx found counting many law flies dest
      exact ⟨_, leaves, same h⟩
  refine ⟨fun s x c running hx dest => ?tries, fun s x c => ?frames⟩
  case tries =>
    intro closed sentBy
    have out := State.tryTimeout_hunting hx dest
    refine ⟨fun stage begun => ?_, fun stage hunting stands more => ?_, fun stage hunting stands third => ?_,
      fun t stage => ?_, fun stage v => ?_, fun stage => ?_⟩
    · rw [exec_tryTimeout running, State.tryTimeout_busy hx dest stage begun]
    · rw [exec_tryTimeout running, out stage hunting, State.endTry_again _ c stands more, ← hunting]
    · have ends := (exec_tryTimeout running).trans
        (congrArg (fun w => Host.Outcome.next (State.transmit w)) (out stage hunting))
      exact ⟨⟨_, ends, State.endTry_third_line c stands third⟩, silent ends hx dest stands third⟩
    · have sent := (exec_retry running).trans
        (congrArg (fun w => Host.Outcome.next (State.transmit w)) (State.retryNow_eq hx stage))
      refine ⟨sent, _, sent, fun v => ?_⟩
      rw [State.transmit_driverEnable, State.driverEnable_of (s := s.sentAgain x t) rfl]
      exact Bool.true_and _
    · rw [State.driverEnable_of hx, stage]
      exact Bool.true_and _
    · have quiet := State.driverEnable_of hx s.now
      rcases stage with stage | ⟨t, stage⟩
      · rw [stage] at quiet; exact quiet
      · rw [stage] at quiet; exact quiet
  case frames =>
    intro counted again
    refine ⟨fun cmd t ends stands => ⟨fun more => ?_, fun third => ?_⟩,
      fun chars whole awaits opens carries heard other => ⟨fun soon => ?_, fun late stands more => ?_⟩,
      fun begun last running hx dest closing assembling stands more =>
        ⟨?_, fun chars bytes carries heard other => ?_⟩⟩
    · rw [ends.exec, State.endTry_again _ c stands more]
      rfl
    · obtain ⟨hx, dest⟩ := ends.target
      exact silent ends.exec hx dest stands third
    · rw [exec_columnFrameCorrupt awaits.1, State.columnChars_other awaits opens carries heard other,
        State.corruptFrame_open awaits.2.2.2.1 soon]
      rfl
    · rw [exec_columnFrameCorrupt awaits.1, State.columnChars_other awaits opens carries heard other,
        State.corruptFrame_over late, State.endTry_again _ c stands more]
      rfl
    · rw [(State.frameEndsTry_gap running hx dest closing assembling).exec, State.endTry_again _ c stands more]
      rfl
    · rw [exec_closing_corrupt running hx dest closing assembling carries heard other,
        State.endTry_again _ c stands more]
      rfl

end Sys2Proof.Machine
end

section
/-! The reply of a column (07 R135, R136; 08 R149, R151). -/

-- The declarations are elaborated one after another, which bounds the memory that their checks take at one time.
set_option Elab.async false

namespace Sys2Proof.Machine

open Config

/-! ## What is a reply (07 R135, R136) -/

theorem minReply_eq (kind : Byte) (fl : Flags) : minReply kind fl =
    if fl.taken = false then 1
    else if kind = 0x05#8 then 25
    else if fl.met = true ∧ kind = 0x02#8 then 2
    else if fl.met = true ∧ kind = 0x03#8 then 4
    else 1 := by
  by_cases fetch : kind = 0x02#8
  · subst fetch; cases taken : fl.taken <;> cases met : fl.met <;> simp [minReply, taken, met]
  by_cases walk : kind = 0x03#8
  · subst walk; cases taken : fl.taken <;> cases met : fl.met <;> simp [minReply, taken, met]
  simp [minReply, fetch, walk]

theorem Exchange.accepts_iff (x : Exchange) (c : Col) {g : Frame} (short : g.body.length ≤ 48) :
    (x.accepts c g.chars).isSome = true ↔
      g.dest = 0#4 ∧ g.src = BitVec.ofNat 4 (c.val + 1) ∧ g.kind = x.kind ||| 0x80#8
        ∧ ∃ fl, bodyFlags g.body = some fl ∧ minReply x.kind fl ≤ g.body.length := by
  have station : stationOf c = BitVec.ofNat 4 (c.val + 1) := rfl
  have mark : replyKind x.kind = x.kind ||| 0x80#8 := rfl
  simp only [Exchange.accepts, frameOf_chars short, crcGood_chars short, true_and, station, mark]
  cases bodyFlags g.body with
  | none => simp
  | some fl => simp [Option.isSome_ite]

/-! ## Characters outside the window (07 R135) -/

/-- While no frame is begun, the characters to which the receiver does not attend do no more than pass. -/
theorem State.columnChars_unattended {s : State} {chars : List LineChar} (hunting : s.columnRx = .hunting)
    (deaf : ∀ ch ∈ chars, s.attends ch.start = false) :
    s.columnChars chars = { s with now := heardBy .column s.now chars } := by
  induction chars generalizing s with
  | nil => rfl
  | cons ch chs ih =>
    obtain ⟨still, rest⟩ := List.forall_mem_cons.mp deaf
    have passed : s.columnChar ch = { s with now := max s.now (stopBit .column ch) } := by
      have unheard : (s.reach (stopBit .column ch)).attends ch.start = false := still
      have near : s.columnRx.lapsed .column ch.start = false := by rw [hunting]; rfl
      simp only [State.columnChar, near, Bool.false_eq_true, if_false, unheard]
      rfl
    show State.columnChars (s.columnChar ch) chs = _
    rw [passed]
    exact ih (s := { s with now := max s.now (stopBit .column ch) }) hunting rest

theorem State.Awaits.attends_outside {s : State} {x : Exchange} {c : Col} (awaits : s.Awaits x c) {t : Time}
    (outside : t < x.requestEnd + 200 ∨ x.requestEnd + 8000 ≤ t) : s.attends t = false := by
  obtain ⟨_, hx, dest, _, hunting⟩ := awaits
  have closed : x.inWindow t = false := by
    rw [Bool.eq_false_iff, ne_eq, Exchange.inWindow, Bool.and_eq_true, decide_eq_true_eq, decide_eq_true_eq]
    rintro ⟨opened, before⟩
    exact outside.elim (not_lt.mpr opened) (not_le.mpr before)
  simp only [State.attends, hx, dest, hunting, closed, Receiver.busy, Bool.or_self, Bool.and_false]

/-! ## The reply ends the exchange (08 R149, R151) -/

theorem State.afterReply_eq (s : State) (c : Col) : (s.answerOf c).clearLine.setQuiet c = s.afterReply c := by
  have columns : (s.columns.set c { s.column c with silence := 0 }).set c
      { (s.answerOf c).column c with quiet := some (s.now + columnSpacing) }
      = s.columns.set c { s.column c with silence := 0, quiet := some (s.now + 10000) } := by
    rw [Bank.set_set, State.answerOf, State.column_setColumn, if_pos rfl]
    rfl
  exact congrArg (fun columns => { s.afterReply c with columns }) columns

theorem State.endExchange_good {s : State} {x : Exchange} {c : Col} {op : Op} (hx : s.exchange = some x)
    (stands : x.abandoned = false) (found : s.opOf x.tag = some op) (fl : Flags) (kind : Byte) (body : List Byte) :
    s.endExchange x c (.good fl kind body) = (s.afterReply c).applyMode op c x.leftReach (.good fl kind body) := by
  have stays : ¬x.abandoned = true := by rw [stands]; nofun
  have marked : ((s.answerOf c).exchange.map Exchange.leftReach).getD false = x.leftReach :=
    congrArg (fun e => (e.map Exchange.leftReach).getD false) hx
  have line : (s.afterReply c).opOf x.tag = some op := found
  rw [State.endExchange, if_neg stays]
  simp only [State.reportResult, marked, State.afterReply_eq, line]

/-- Settles O56. -/
theorem goodReplyEndsTheExchange : Obligations.GoodReplyEndsTheExchange := by
  refine ⟨fun x c g => Exchange.accepts_iff x c, rfl, fun _ _ => rfl, minReply_eq, fun s x c chars => ?_⟩
  intro heard
  refine ⟨fun awaits outside => ?stray, fun body fl op stands short flags enough found => ?reply⟩
  case stray =>
    have passed := State.columnChars_unattended awaits.2.2.2.2 fun ch hch => awaits.attends_outside (outside ch hch)
    rw [exec_columnReply awaits.1, passed]
  case reply =>
    intro whole ends
    have good (hx : s.exchange = some x) :
        State.endExchange { s with now := heard } x c (.good fl (x.kind ||| 0x80#8) body) = _ :=
      State.endExchange_good (s := { s with now := heard }) hx stands found fl (x.kind ||| 0x80#8) body
    refine ⟨fun awaits opens carries gaps => ?_,
      fun begun last bytes running hx dest stage assembling split carries complete => ?_⟩
    · have reply := State.columnChars_reply awaits opens short flags enough carries gaps
      exact (exec_columnReply awaits.1 _).trans
        (congrArg (fun u => Host.Outcome.next (State.transmit u)) (reply.trans (good awaits.2.1)))
    · have listens : x.stage.listens = true := by rcases stage with h | h <;> rw [h] <;> rfl
      rw [← split] at complete
      have rest := State.columnChars_rest hx dest listens assembling carries complete
      rw [split, State.columnFound_reply (s := { s with now := heard, columnRx := .hunting }) hx dest listens
        (Exchange.accepts_reply short flags enough)] at rest
      have reply := rest.trans (State.endExchange_good (s := { s with now := heard, columnRx := .hunting }) hx stands
        found fl (x.kind ||| 0x80#8) body)
      exact (exec_columnReply running _).trans (congrArg (fun u => Host.Outcome.next (State.transmit u)) reply)

end Sys2Proof.Machine
end

section
/-! The repetition modes and the events of a FETCH (08 R154 to R159, 07 R139 to R141). -/

-- The declarations are elaborated one after another, which bounds the memory that their checks take at one time.
set_option Elab.async false

namespace Sys2Proof.Machine

open Config

/-! ## Good replies in each mode (08 R154 to R158) -/

section

variable (s : State) (op : Op) (c : Col) (left : Bool) (fl : Flags) (kind : Byte) (body : List Byte)

theorem State.applyMode_once (mode : op.mode = .once) : s.applyMode op c left (.good fl kind body) =
    if fl.taken then s.endOp op (.done fl.met kind body) else s.endOp op .failed := by
  rw [State.applyMode, mode]
  rfl

theorem State.applyMode_untilMet {limit made : Nat} (mode : op.mode = .untilMet limit made) :
    s.applyMode op c left (.good fl kind body) =
      if fl.taken = false then s.endOp op .failed
      else if fl.met then s.endOp op (.done true kind body)
      else if made + 1 = limit then s.endOp { op with mode := .untilMet limit (made + 1) } .unmet
      else s.giveBack { op with mode := .untilMet limit (made + 1), notBefore := s.now + 100000 } left := by
  rw [State.applyMode, mode]
  obtain ⟨taken, met, more⟩ := fl
  cases taken <;> cases met <;> rfl

theorem State.applyMode_untilEmpty {n : Nat} (mode : op.mode = .untilEmpty n) :
    s.applyMode op c left (.good fl kind body) =
      if fl.taken = false then s.endOp op .failed
      else if fl.met = false then s.endOp op (.done false kind body)
      else
        if fl.more = false ∨ n + 1 = 8 then (s.handRaw c (body.drop 1)).endOp op (.done true kind body)
        else (s.handRaw c (body.drop 1)).giveBack { op with mode := .untilEmpty (n + 1) } left := by
  have last : (!fl.more || n + 1 == 8) = true ↔ fl.more = false ∨ n + 1 = 8 := by simp
  rw [State.applyMode, mode]
  simp only [State.untilEmptyResult, Bool.not_eq_true', last]

theorem State.applyMode_counted {n : Nat} (mode : op.mode = .counted n) :
    s.applyMode op c left (.good fl kind body) =
      if fl.taken = false then s.endOp op .failed
      else if natAt op.body 0 1 ≤ n + 1 then s.endOp { op with mode := .counted (n + 1) } (.done fl.met kind body)
      else s.giveBack { op with mode := .counted (n + 1) } left := by
  rw [State.applyMode, mode]
  simp only [State.countedResult, Bool.not_eq_true']

theorem State.applyMode_silent (plain : op.mode.isWalk = false) :
    s.applyMode op c left .silent = s.endOp op .silent := by
  rw [State.applyMode]
  cases mode : op.mode with
  | walk w => rw [mode] at plain; cases plain
  | _ => rfl

theorem State.applyMode_walk {w : Walk} (mode : op.mode = .walk w) :
    s.applyMode op c left (.good fl kind body) = s.walkStep op.tag w (some (fl, body))
      ∧ s.applyMode op c left .silent = s.walkStep op.tag w none := by
  rw [State.applyMode, State.applyMode, mode]
  exact ⟨rfl, rfl⟩

end

/-! ## The fields of an event (07 R137, R139) -/

theorem natAt_byte {bs : List Byte} {off : Nat} {b : Byte} (at_ : bs[off]? = some b) : natAt bs off 1 = b.toNat := by
  rw [natAt, fieldAt_byte at_, beNat_singleton]

theorem digits_foldl (ds : List Nat) (n : Nat) : ds.foldl digitInto (some n) =
    if ∀ d ∈ ds, d ≤ 9 then some (ds.foldl (fun n d => n * 10 + d) n) else none := by
  have lost (ds : List Nat) : ds.foldl digitInto none = none := by
    induction ds with
    | nil => rfl
    | cons d ds ih => exact ih
  induction ds generalizing n with
  | nil => simp
  | cons d ds ih =>
    simp only [List.foldl_cons, List.forall_mem_cons]
    by_cases digit : d ≤ 9
    · have taken : digitInto (some n) d = some (n * 10 + d) := if_pos digit
      simp only [taken, ih, digit, true_and]
    · have refused : digitInto (some n) d = none := if_neg digit
      simp only [refused, lost, digit, false_and, if_false]

theorem sideOf_none {n : Nat} (h : 1 < n) : sideOf n = none := by
  rw [sideOf, if_neg (by omega), if_neg (by omega)]

/-! ## Events by their codes (07 R139, R140) -/

theorem eventOf_code (more : List Byte) : eventOf (0x01#8 :: more) =
    match more with
    | x :: y :: z :: _ => some (.code (codeOf [x, y, z]))
    | _ => none := by
  rcases more with _ | ⟨x, _ | ⟨y, _ | ⟨z, more⟩⟩⟩
  case cons.cons.cons => simp [eventOf, natAt_byte, fieldAt]
  all_goals rfl

theorem eventOf_backScan (more : List Byte) : eventOf (0x02#8 :: more) =
    match more with
    | w :: x :: y :: z :: _ => some (.backScan (((w.toNat * 256 + x.toNat) * 256 + y.toNat) * 256 + z.toNat))
    | _ => none := by
  rcases more with _ | ⟨w, _ | ⟨x, _ | ⟨y, _ | ⟨z, more⟩⟩⟩⟩
  case cons.cons.cons.cons =>
    have field : natAt (0x02#8 :: w :: x :: y :: z :: more) 1 4
        = ((w.toNat * 256 + x.toNat) * 256 + y.toNat) * 256 + z.toNat := by simp [natAt, fieldAt, beNat]
    simp [eventOf, natAt_byte, field]
  all_goals rfl

theorem eventOf_position {code : Byte} {make : Nat → Event}
    (known : code = 0x03#8 ∧ make = .backClear ∨ code = 0x08#8 ∧ make = .sensorFault) (more : List Byte) :
    eventOf (code :: more) =
      match more with
      | p :: _ => some (make p.toNat)
      | _ => none := by
  rcases known with ⟨rfl, rfl⟩ | ⟨rfl, rfl⟩
  all_goals
    rcases more with _ | ⟨p, more⟩
    case cons => simp [eventOf, natAt_byte]
    all_goals rfl

theorem eventOf_side {code : Byte} {make : Nat → Side → Event}
    (known : code = 0x04#8 ∧ make = .doorOpened ∨ code = 0x06#8 ∧ make = .relatched) (more : List Byte) :
    eventOf (code :: more) =
      match more with
      | p :: b :: _ => (sideOf b.toNat).map (make p.toNat)
      | _ => none := by
  rcases known with ⟨rfl, rfl⟩ | ⟨rfl, rfl⟩
  all_goals
    rcases more with _ | ⟨p, _ | ⟨b, more⟩⟩
    case cons.cons => simp [eventOf, natAt_byte]
    all_goals rfl

theorem eventOf_doorClosed (more : List Byte) : eventOf (0x05#8 :: more) =
    match more with
    | p :: b :: o :: _ => (sideOf b.toNat).bind fun side => (markOf o.toNat).map (.doorClosed p.toNat side)
    | _ => none := by
  rcases more with _ | ⟨p, _ | ⟨b, _ | ⟨o, more⟩⟩⟩
  case cons.cons.cons =>
    have side : natAt (0x05#8 :: p :: b :: o :: more) 2 1 = b.toNat := natAt_byte rfl
    have mark : natAt (0x05#8 :: p :: b :: o :: more) 3 1 = o.toNat := natAt_byte rfl
    simp only [eventOf, List.length_cons, side, mark]
    cases sideOf b.toNat <;> cases markOf o.toNat <;> simp [natAt_byte]
  all_goals rfl

theorem eventOf_purgeDone (more : List Byte) : eventOf (0x07#8 :: more) =
    match more with
    | p :: b :: _ => (markOf b.toNat).map fun fail => .purgeDone p.toNat (!fail)
    | _ => none := by
  rcases more with _ | ⟨p, _ | ⟨b, more⟩⟩
  case cons.cons => simp [eventOf, natAt_byte]
  all_goals rfl

theorem eventOf_foreign {code : Byte} (more : List Byte) (low : 0x10 ≤ code.toNat) (high : code.toNat ≤ 0x3F) :
    eventOf (code :: more) = some (.foreign (code :: more)) := by
  have first : natAt (code :: more) 0 1 = code.toNat := natAt_byte rfl
  have other (k : Nat) (small : k < 0x10) : ¬code.toNat = k := by omega
  simp [eventOf, first, other, low, high]

/-- The codes that name no event. -/
theorem eventOf_unknown {code : Byte} (more : List Byte)
    (unknown : code.toNat = 0 ∨ (9 ≤ code.toNat ∧ code.toNat ≤ 0x0F) ∨ 0x40 ≤ code.toNat) :
    eventOf (code :: more) = none := by
  have first : natAt (code :: more) 0 1 = code.toNat := natAt_byte rfl
  have other (k : Nat) (small : 1 ≤ k ∧ k ≤ 8) : ¬code.toNat = k := by omega
  have outside : ¬(0x10 ≤ code.toNat ∧ code.toNat ≤ 0x3F) := by omega
  simp [eventOf, first, other, outside]

theorem eventOf_malformed {code : Byte} {more : List Byte}
    (bad : code = 0#8 ∨ (9 ≤ code.toNat ∧ code.toNat ≤ 0x0F) ∨ 0x40 ≤ code.toNat
      ∨ (code = 0x01#8 ∧ more.length < 3) ∨ (code = 0x02#8 ∧ more.length < 4)
      ∨ (code ∈ [0x03#8, 0x08#8] ∧ more.length < 1)
      ∨ (code ∈ [0x04#8, 0x06#8, 0x07#8] ∧ (more.length < 2 ∨ ∃ b, more[1]? = some b ∧ 1 < b.toNat))
      ∨ (code = 0x05#8 ∧ (more.length < 3 ∨ (∃ b, more[1]? = some b ∧ 1 < b.toNat)
        ∨ ∃ b, more[2]? = some b ∧ 1 < b.toNat))) : eventOf (code :: more) = none := by
  rcases bad with rfl | other | high | ⟨rfl, short⟩ | ⟨rfl, short⟩ | ⟨known, short⟩ | ⟨known, bad⟩ | ⟨rfl, bad⟩
  · exact eventOf_unknown more (.inl rfl)
  · exact eventOf_unknown more (.inr (.inl other))
  · exact eventOf_unknown more (.inr (.inr high))
  · rw [eventOf_code]
    split
    · simp only [List.length_cons] at short
      omega
    · rfl
  · rw [eventOf_backScan]
    split
    · simp only [List.length_cons] at short
      omega
    · rfl
  · obtain rfl : more = [] := List.length_eq_zero_iff.mp (by omega)
    simp only [List.mem_cons, List.not_mem_nil, or_false] at known
    rcases known with rfl | rfl <;> rfl
  · simp only [List.mem_cons, List.not_mem_nil, or_false] at known
    have over_ {p b : Byte} {rest : List Byte} (eq : more = p :: b :: rest) : 1 < b.toNat := by
      rw [eq] at bad
      simpa using bad
    rcases known with rfl | rfl | rfl
    · rw [eventOf_side (.inl ⟨rfl, rfl⟩)]
      split
      · rw [sideOf_none (over_ rfl)]; rfl
      · rfl
    · rw [eventOf_side (.inr ⟨rfl, rfl⟩)]
      split
      · rw [sideOf_none (over_ rfl)]; rfl
      · rfl
    · rw [eventOf_purgeDone]
      split
      · rw [markOf_none (over_ rfl)]; rfl
      · rfl
  · rw [eventOf_doorClosed]
    split
    · next p b o rest =>
      have over_ : 1 < b.toNat ∨ 1 < o.toNat :=
        bad.resolve_left (by simp) |>.imp (by simp) (by simp)
      rcases over_ with side | mark
      · rw [sideOf_none side]; rfl
      · rw [markOf_none mark]; cases sideOf b.toNat <;> rfl
    · rfl

/-! ## Events at a position (02 R41, 06 R122) -/

/-- What an event with position `n` does, where it names one. -/
def State.atPosition (s : State) (c : Col) (n : Nat) (act : LockerId → State) : State :=
  match positionNumber n with
  | none => s
  | some p => act (lockerAt c p)

theorem State.atPosition_known (s : State) (act : LockerId → State) {c : Col} {n : Nat} {l : LockerId}
    (column : lockerCol l = c) (position : n = (lockerPos l).val + 1) : s.atPosition c n act = act l := by
  have named : positionNumber n = some (lockerPos l) := by
    have inside : 1 ≤ n ∧ n ≤ 8 := by omega
    rw [positionNumber, dif_pos inside]
    exact congrArg some (Fin.ext (by simp [position]))
  rw [State.atPosition, named]
  exact congrArg act (lockerAt_lockerPos column)

theorem State.atPosition_other (s : State) (c : Col) (act : LockerId → State) {n : Nat} (other : n = 0 ∨ 8 < n) :
    s.atPosition c n act = s := by
  have none_ : positionNumber n = none := dif_neg (by omega)
  rw [State.atPosition, none_]

theorem State.handRaw_some {s : State} {c : Col} {raw : List Byte} {e : Event} (event : eventOf raw = some e) :
    s.handRaw c raw = s.handEvent c e := by
  rw [State.handRaw, event]

/-! ## PURGE-DONE (06 R122) -/

theorem LockerState.isPurging_iff (st : LockerState) : st.isPurging = true ↔ ∃ t, st = .purging t := by
  cases st <;> simp [LockerState.isPurging]

/-- Settles O57. -/
theorem modesJudgeTheReply : Obligations.ModesJudgeTheReply := by
  refine ⟨fun s op c left fl kind body => ?modes, fun s c => ?events, fun x y z => ?digits, fun s l ok => ?purged⟩
  case modes =>
    exact ⟨s.applyMode_once op c left fl kind body, fun _ _ => s.applyMode_untilMet op c left fl kind body,
      fun _ => s.applyMode_untilEmpty op c left fl kind body, fun _ => s.applyMode_counted op c left fl kind body,
      s.applyMode_silent op c left, fun _ => s.applyMode_walk op c left fl kind body⟩
  case events =>
    intro at_
    have hands {p : Byte} {raw : List Byte} {e : Event} {act : LockerId → State} (event : eventOf raw = some e)
        (acts : s.handEvent c e = s.atPosition c p.toNat act) : at_ p act (s.handRaw c raw) := by
      rw [State.handRaw_some event, acts]
      refine ⟨fun l column position => s.atPosition_known act column position, fun other => ?_⟩
      exact s.atPosition_other c act (other.imp (fun zero => by rw [zero]; rfl) id)
    refine ⟨fun x y z more => State.handRaw_some (e := .code _) (eventOf_code _),
      fun w x y z more => State.handRaw_some (e := .backScan _) (eventOf_backScan _),
      fun p more => State.handRaw_some (e := .backClear p.toNat) (eventOf_position (.inl ⟨rfl, rfl⟩) _), fun p more => ?_,
      fun code more low high => State.handRaw_some (eventOf_foreign more low high), rfl, fun code more bad => ?_⟩
    · exact ⟨hands (eventOf_side (.inl ⟨rfl, rfl⟩) _) rfl, hands (eventOf_side (.inl ⟨rfl, rfl⟩) _) rfl,
        hands (eventOf_doorClosed _) rfl, hands (eventOf_doorClosed _) rfl, hands (eventOf_doorClosed _) rfl,
        hands (eventOf_doorClosed _) rfl, hands (eventOf_side (.inr ⟨rfl, rfl⟩) _) rfl,
        hands (eventOf_side (.inr ⟨rfl, rfl⟩) _) rfl, hands (eventOf_purgeDone _) rfl, hands (eventOf_purgeDone _) rfl,
        hands (eventOf_position (.inr ⟨rfl, rfl⟩) _) rfl⟩
    · rw [State.handRaw, eventOf_malformed bad]
  case digits =>
    exact digits_foldl [x.toNat / 16, x.toNat % 16, y.toNat / 16, y.toNat % 16, z.toNat / 16, z.toNat % 16] 0
  case purged =>
    refine ⟨fun t purging => ?_, fun other => ?_⟩
    · have runs := (LockerState.isPurging_iff _).mpr ⟨t, purging⟩
      refine ⟨fun passed => ?_, fun failed => ?_⟩
      · subst passed
        exact if_pos runs
      · subst failed
        exact if_pos runs
    · refine if_neg fun runs => ?_
      obtain ⟨t, purging⟩ := (LockerState.isPurging_iff _).mp runs
      exact other t purging

end Sys2Proof.Machine
end

section
/-! What outcomes do in the blocks they reach (08 R159). -/

-- The declarations are elaborated one after another, which bounds the memory that their checks take at one time.
set_option Elab.async false

namespace Sys2Proof.Machine

open Config

/-! ## UNLATCH (02 R48, 03 R65 to R67, 04 R83 to R85, R92) -/

section

variable {s : State} {l : LockerId} {slot : Option Slot}

theorem State.handshake_collect : s.handshakeStands l .collect slot = true ↔
    ∃ i m, (s.locker l).state = .releasing i m ∧ slot = some i := by
  cases state : (s.locker l).state <;> simp [State.handshakeStands, state]

theorem State.handshake_load : s.handshakeStands l .load slot = true ↔
    ∃ i d, (s.locker l).state = .loading i .awaitLatch d ∧ slot = some i := by
  cases state : (s.locker l).state with
  | loading i ph d => cases ph <;> simp [State.handshakeStands, state]
  | _ => simp [State.handshakeStands, state]

theorem State.handshake_clear : s.handshakeStands l .clear slot = true ↔
    ∃ st d, (s.locker l).state = .clearing st .awaitLatch d := by
  cases state : (s.locker l).state with
  | clearing st ph d => cases ph <;> simp [State.handshakeStands, state]
  | _ => simp [State.handshakeStands, state]

variable {origin : Origin}

theorem State.unlatchOutcome_gone (gone : ¬s.handshakeStands l origin slot = true) (out : Outcome) :
    s.unlatchOutcome l origin slot out = s := if_neg gone

/-- What each outcome of an UNLATCH does while its handshake stands. -/
theorem State.unlatchOutcome_stands (stands : s.handshakeStands l origin slot = true) (out : Outcome) :
    ((∃ met kind body, out = .done met kind body) →
        s.unlatchOutcome l origin slot out = s.confirmLatch l (some (s.now + 300000)))
      ∧ (out = .unmet ∨ out = .failed ∨ out = .silent →
        s.unlatchOutcome l origin slot out = s.unlatchFailed l origin)
      ∧ (out = .cancelled → s.unlatchOutcome l origin slot out = s) := by
  refine ⟨?_, ?_, ?_⟩
  · rintro ⟨met, kind, body, rfl⟩
    exact if_pos stands
  · rintro (rfl | rfl | rfl) <;> exact if_pos stands
  · rintro rfl
    exact if_pos stands

theorem State.confirmLatch_loading {i : Slot} {d : Door} (loading : (s.locker l).state = .loading i .awaitLatch d)
    (mask : Option Time) : s.confirmLatch l mask =
      { s with lockers := s.lockers.set l { s.locker l with state := .loading i .unlatched ⟨some s.now, false, mask⟩ } } := by
  simp only [State.confirmLatch, loading]
  rfl

theorem State.confirmLatch_clearing {st : Option Stored} {d : Door}
    (clearing : (s.locker l).state = .clearing st .awaitLatch d) (mask : Option Time) : s.confirmLatch l mask =
      { s with lockers := s.lockers.set l { s.locker l with state := .clearing st .unlatched ⟨some s.now, false, mask⟩ } } := by
  simp only [State.confirmLatch, clearing]
  rfl

end

/-! ## PURGE-START and PURGE-ABORT (06 R119 to R121, R125, R126) -/

section

variable {s : State} {l : LockerId}

theorem State.purgeStart_unmet {out : Outcome} (unmet : ¬∃ kind body, out = .done true kind body) :
    s.purgeStartOutcome l out = s ∧ s.purgeAbortOutcome l out = s := by
  cases out with
  | done met kind body =>
    cases met with
    | true => exact absurd ⟨kind, body, rfl⟩ unmet
    | false => exact ⟨rfl, rfl⟩
  | _ => exact ⟨rfl, rfl⟩

theorem State.purgeStart_waiting (waits : (s.locker l).state = .purgeWait) (kind : Byte) (body : List Byte) :
    s.purgeStartOutcome l (.done true kind body) = s.startPurging l := by
  simp only [State.purgeStartOutcome, waits]

theorem State.purgeStart_unwanted (other : (s.locker l).state ≠ .purgeWait) (kind : Byte) (body : List Byte) :
    s.purgeStartOutcome l (.done true kind body) = s.queueAbort l false := by
  cases state : (s.locker l).state with
  | purgeWait => exact absurd state other
  | _ => simp only [State.purgeStartOutcome, state]

/-- The purge that begins at the court time, its stall deadline not yet taken. -/
def State.purging (s : State) (l : LockerId) : State :=
  { s with lockers := s.lockers.set l { s.locker l with state := .purging s.court } }

theorem State.startPurging_eq (s : State) (l : LockerId) : s.startPurging l = (s.purging l).stallDue l := rfl

theorem State.purging_state (s : State) (l : LockerId) : ((s.purging l).locker l).state = .purging s.court := by
  simp [State.purging, State.locker]

theorem State.startPurging_runs (early : ∀ t, s.court = some t → t < 4294967295) : s.startPurging l = s.purging l := by
  have state := s.purging_state l
  rw [State.startPurging_eq]
  cases court : s.court with
  | none =>
    rw [court] at state
    exact State.stallDue_none state
  | some t =>
    rw [court] at state
    rw [State.stallDue_some (s := s.purging l) court state]
    have soon := early t court
    exact if_neg (by omega)

theorem State.startPurging_stalls (last : s.court = some 4294967295) :
    s.startPurging l = ((s.purging l).takeFault l .purgeStall).queueAbort l false := by
  have state := s.purging_state l
  rw [last] at state
  rw [State.startPurging_eq, State.stallDue_some (s := s.purging l) last state]
  exact if_pos (by omega)

/-- PURGE-ABORT is queued where it may be (06 R125). -/
theorem State.queueAbort_eq (s : State) (l : LockerId) (walkStep : Bool) : s.queueAbort l walkStep =
    if s.abortOutstanding l = false ∧ (walkStep = true ∨ s.reachable (lockerCol l) = true) ∧ 0 < s.freeEntries then
      { s with
        ops := s.ops ++ [{ purgeOp 0x07#8 l with tag := s.lowestTag, notBefore := s.now, inFlight := false }] }
    else s := by
  have asks : s.queueAbort l walkStep =
      if s.abortOutstanding l = false ∧ (walkStep = true ∨ s.reachable (lockerCol l) = true) then
        s.enqueue (purgeOp 0x07#8 l) else s := by
    unfold State.queueAbort
    cases s.abortOutstanding l <;> simp
  rw [asks]
  by_cases room : 0 < s.freeEntries
  · simp only [room, and_true, State.enqueue_room room]
  · have full := Nat.eq_zero_of_not_pos room
    simp only [room, and_false, if_false, State.enqueue_full full, ite_self]

end

/-! ## Cold seconds (05 R113, R114) -/

section

variable {s : State} {l : LockerId} {i : Slot} {m : Meal} {r : Reservation} {k : FoodClass}
  (hr : s.entry i = some r) (class_ : s.classes.get r.cls = some k)
include hr class_

theorem State.addCold_within (meal : (s.locker l).state.meal = some (i, m)) (within : m.cold + 10 ≤ k.coldAllowance) :
    s.addCold l = s.enterLocker l ((s.locker l).state.withMeal ⟨m.deadline, m.cold + 10⟩) := by
  rw [State.addCold_meal meal hr class_, if_neg (not_lt.mpr within)]

variable (exceeds : k.coldAllowance < m.cold + 10)
include exceeds

theorem State.addCold_ready {at_ : Nat} (holding : (s.locker l).state = .holding i m) (ready : r.stage = .ready l at_) :
    s.addCold l =
      (((s.enterLocker l (.spoiled (some ⟨r.tag, .cold⟩))).setEntry i none).countExpired).queueNotice
        (.expired r.tag .cold (some l)) := by
  rw [State.addCold_meal (m := m) (by rw [holding]; rfl) hr class_, if_pos exceeds, holding,
    State.bringTimed_ready (r := r) (by simpa using hr) ready (by decide)]
  simp only [LockerState.withMeal, State.enterLocker_again (a := .holding i ⟨m.deadline, m.cold + 10⟩) fun _ => rfl]

theorem State.addCold_releasing {at_ : Nat} {e : Option Reason} (releasing : (s.locker l).state = .releasing i m)
    (stage : r.stage = .releasing l at_ e) :
    s.addCold l = (s.enterLocker l (.releasing i ⟨m.deadline, m.cold + 10⟩)).setEntry i
      (some { r with stage := .releasing l at_ (some (e.getD .cold)) }) := by
  rw [State.addCold_meal (m := m) (by rw [releasing]; rfl) hr class_, if_pos exceeds, releasing,
    State.bringTimed_releasing (r := r) (by simpa using hr) stage]
  rfl

theorem State.addCold_opened {at_ : Nat} {e : Option Reason} {d : Door} (opened : (s.locker l).state = .opened i m d)
    (stage : r.stage = .opened l at_ e) :
    s.addCold l = (s.enterLocker l (.opened i ⟨m.deadline, m.cold + 10⟩ d)).setEntry i
      (some { r with stage := .opened l at_ (some (e.getD .cold)) }) := by
  rw [State.addCold_meal (m := m) (by rw [opened]; rfl) hr class_, if_pos exceeds, opened,
    State.bringTimed_opened (r := r) (by simpa using hr) stage]
  rfl

end

/-! ## The obligation -/

section

variable {s : State} {op : Op}

theorem State.deliver_position {c : Col} {p : Pos} (dest : op.dest = .column c) (position : op.position = some p)
    (origin : op.origin = .collect ∨ op.origin = .load ∨ op.origin = .clear ∨ op.origin = .purge) (out : Outcome) :
    s.deliver op out = s.deliverAt op (lockerAt c p) out := by
  rcases origin with h | h | h | h <;> simp only [State.deliver, h, dest, position]

theorem State.deliverAt_purge {l : LockerId} (purge : op.origin = .purge) (out : Outcome) :
    s.deliverAt op l out = if op.kind = 0x06#8 then s.purgeStartOutcome l out else s.purgeAbortOutcome l out := by
  simp only [State.deliverAt, purge]

theorem State.deliver_heat {c : Col} (heat : op.origin = .heat) (dest : op.dest = .column c) (out : Outcome) :
    s.deliver op out = s.heatOutcome c out := by
  simp only [State.deliver, heat, dest]

theorem State.showIfReachable_at (u : State) (c : Col) (p : Pos) (side : Side) (m : Message) :
    u.showIfReachable (lockerCol (lockerAt c p)) side m =
      if u.reachable c = true then u.enqueue (panelOp c side m) else u := by
  rw [lockerCol_lockerAt]
  rfl

end

/-- Settles O58. -/
theorem outcomesReachTheirBlocks : Obligations.OutcomesReachTheirBlocks := by
  refine ⟨fun s op c p out dest position => ?positions, fun s l walkStep => s.queueAbort_eq l walkStep,
    fun s op c out heat dest => ?heat, fun s l => ?cold, fun s op out idle => ?idle⟩
  case positions =>
    intro l lk become shows fails done
    have reaches := State.deliver_position (s := s) dest position
    refine ⟨fun collect => ?_, fun load => ?_, fun clear => ?_, fun purge => ?_⟩
    · have unlatch : s.deliver op out = s.unlatchOutcome l .collect op.slot out := by
        rw [reaches (.inl collect), State.deliverAt, collect]
      refine ⟨fun i m r at_ e releasing slot hr stage => ?_, fun gone => ?_⟩
      · obtain ⟨confirms, fault, still⟩ :=
          State.unlatchOutcome_stands (State.handshake_collect.mpr ⟨i, m, releasing, slot⟩) out
        refine ⟨fun isDone => ?_, fun isFail => ?_, fun cancelled => unlatch.trans (still cancelled)⟩
        · rw [unlatch, confirms isDone, State.confirmLatch_releasing releasing hr stage]
          rfl
        · exact unlatch.trans ((fault isFail).trans (State.showIfReachable_at _ c p _ _))
      · rw [unlatch, State.unlatchOutcome_gone]
        intro stands
        obtain ⟨i, m, releasing, slot⟩ := State.handshake_collect.mp stands
        exact gone i m releasing slot
    · have unlatch : s.deliver op out = s.unlatchOutcome l .load op.slot out := by
        rw [reaches (.inr (.inl load)), State.deliverAt, load]
      refine ⟨fun i d loading slot => ?_, fun gone => ?_⟩
      · obtain ⟨confirms, fault, still⟩ :=
          State.unlatchOutcome_stands (State.handshake_load.mpr ⟨i, d, loading, slot⟩) out
        refine ⟨fun isDone => ?_, fun isFail => ?_, fun cancelled => unlatch.trans (still cancelled)⟩
        · rw [unlatch, confirms isDone, State.confirmLatch_loading loading]
        · exact unlatch.trans ((fault isFail).trans (State.showIfReachable_at _ c p _ _))
      · rw [unlatch, State.unlatchOutcome_gone]
        intro stands
        obtain ⟨i, d, loading, slot⟩ := State.handshake_load.mp stands
        exact gone i d loading slot
    · have unlatch : s.deliver op out = s.unlatchOutcome l .clear op.slot out := by
        rw [reaches (.inr (.inr (.inl clear))), State.deliverAt, clear]
      refine ⟨fun st d clearing => ?_, fun gone => ?_⟩
      · obtain ⟨confirms, fault, still⟩ :=
          State.unlatchOutcome_stands (slot := op.slot) (State.handshake_clear.mpr ⟨st, d, clearing⟩) out
        refine ⟨fun isDone => ?_, fun isFail => ?_, fun cancelled => unlatch.trans (still cancelled)⟩
        · rw [unlatch, confirms isDone, State.confirmLatch_clearing clearing]
        · exact unlatch.trans ((fault isFail).trans (State.showIfReachable_at _ c p _ _))
      · rw [unlatch, State.unlatchOutcome_gone]
        intro stands
        obtain ⟨st, d, clearing⟩ := State.handshake_clear.mp stands
        exact gone st d clearing
    · intro begun
      have outcome := (reaches (.inr (.inr (.inr purge))) out).trans (State.deliverAt_purge (l := l) purge out)
      refine ⟨fun unmet => ?_, ?_, ?_⟩
      · obtain ⟨start, abort⟩ := State.purgeStart_unmet (s := s) (l := l) unmet
        rw [outcome, start, abort, ite_self]
      · rintro ⟨kind, body, rfl⟩ start
        rw [outcome, if_pos start]
        refine ⟨fun waits early => ?_, fun waits last => ?_, fun other => State.purgeStart_unwanted other kind body⟩
        · rw [State.purgeStart_waiting waits, State.startPurging_runs early]
          rfl
        · rw [State.purgeStart_waiting waits, State.startPurging_stalls last]
          rfl
      · rintro ⟨kind, body, rfl⟩ abort
        rw [outcome, if_neg (by rw [abort]; decide)]
        refine ⟨fun t purging => ?_, fun other => ?_⟩
        · have runs : s.purgeAbortOutcome l (.done true kind body) = s.startRest l :=
            if_pos ((LockerState.isPurging_iff _).mpr ⟨t, purging⟩)
          rw [runs, State.startRest_writes]
          rfl
        · refine if_neg fun runs => ?_
          obtain ⟨t, purging⟩ := (LockerState.isPurging_iff _).mp runs
          exact other t purging
  case heat =>
    have outcome := State.deliver_heat (s := s) heat dest out
    have blind : s.blindPeriod c = _ := rfl
    rw [State.blindPeriod, allPos_eq] at blind
    refine ⟨fun met kind body done => ?_, fun fails => outcome.trans ?_, blind.symm⟩
    · subst done
      rw [outcome, State.heatOutcome, allPos_eq]
    · rcases fails with rfl | rfl | rfl <;> exact blind.symm
  case cold =>
    intro lk become
    refine ⟨fun none_ => by simp only [State.addCold, show (s.locker l).state.meal = none from none_],
      fun i m r k meal hr class_ => ?_⟩
    intro more
    refine ⟨fun within => ?_, fun exceeds => ⟨fun at_ holding ready => ?_, fun at_ e releasing stage => ?_,
      fun at_ e d opened stage => ?_⟩⟩
    · have added := State.addCold_within hr class_ meal within
      refine ⟨fun here => ?_, fun here => ?_, fun d here => ?_⟩
      all_goals
        rw [added, here]
        rfl
    · rw [State.addCold_ready hr class_ exceeds holding ready]
      rfl
    · rw [State.addCold_releasing hr class_ exceeds releasing stage]
      rfl
    · rw [State.addCold_opened hr class_ exceeds opened stage]
      rfl
  case idle =>
    rcases idle with h | h | h | h <;> simp only [State.deliver, h]

end Sys2Proof.Machine
end

section
/-! The end of a broadcast and of a POLL (08 R152, R153). -/

-- The declarations are elaborated one after another, which bounds the memory that their checks take at one time.
set_option Elab.async false

namespace Sys2Proof.Machine

open Config

/-! ## The line is left (07 R129, 08 R152) -/

theorem State.opOf_tag {s : State} {tag : Nat} {op : Op} (found : s.opOf tag = some op) : op.tag = tag :=
  beq_iff_eq.mp (List.find?_some (p := fun o : Op => o.tag == tag) found)

section

variable {s : State} {x : Exchange} (hx : s.exchange = some x) (stands : x.abandoned = false)
include hx stands

theorem State.broadcastSent_op {op : Op} (stage : x.stage = .broadcast) (found : s.opOf x.tag = some op) :
    s.broadcastSent = (s.leftLineAt (max s.now x.requestEnd)).endOp op (.done false x.kind []) := by
  have stays : ¬x.abandoned = true := by rw [stands]; nofun
  have line : (s.leftLineAt (max s.now x.requestEnd)).opOf x.tag = some op := found
  have off : (s.reach x.requestEnd).clearLine = s.leftLineAt (max s.now x.requestEnd) := rfl
  simp only [State.broadcastSent, hx, if_pos stage, off, line, if_neg stays]

theorem State.pollEnded_slots (stage : x.stage = .slots) (chars : List LineChar) :
    s.pollEnded chars =
      ((s.leftLineAt (max s.now (x.requestEnd + 8500))).takeSlots x.requestEnd chars).removeOp x.tag := by
  have stays : ¬x.abandoned = true := by rw [stands]; nofun
  have off : (s.reach (x.requestEnd + pollSlots)).clearLine = s.leftLineAt (max s.now (x.requestEnd + 8500)) := rfl
  simp only [State.pollEnded, hx, if_pos stage, off, if_neg stays]

end

theorem State.deliver_broadcast {s : State} {op : Op} {ref : InboxRef} (pass : op.origin = .pass) (dest : op.dest = .all)
    (asked : op.inboxRef = some ref) (met : Bool) (kind : Byte) (body : List Byte) :
    s.deliver op (.done met kind body) =
      { s with replies := s.replies ++ [⟨ref.kind ||| 0x80#8, ref.dest, [0x40#8], false⟩] } := by
  simp only [State.deliver, pass, State.passOutcome, asked, dest, State.passAnswer_eq]
  rfl

/-! ## The slots (08 R153, 07 R138) -/

theorem State.endSlot_answer {u : State} {c : Col} {ch : LineChar} {a : SlotAnswer} (answer : charAnswer ch = some a) :
    u.endSlot c [ch] = u.takeSlot c (some a) := by
  simp only [State.endSlot, slotAnswer, answer]

theorem State.endSlot_noise {u : State} {c : Col} {ch : LineChar} (noise : charAnswer ch = none) :
    u.endSlot c [ch] = u.countColumnDiscard.takeSlot c none := by
  simp only [State.endSlot, slotAnswer, noise]
  rfl

theorem slotChars_eq (t : Time) (c : Col) (chars : List LineChar) : slotChars t c chars =
    chars.filter fun ch => decide (t + 500 + c.val * 1000 ≤ ch.start ∧ ch.start < t + 500 + c.val * 1000 + 1000) :=
  List.filter_congr fun _ _ => (Bool.decide_and _ _).symm

/-- The valid answers, character by character (07 Table 7-5). -/
theorem validAnswers : ∀ b : Byte, (b &&& 0x7C#8 = 0#8 ∧ setBits b % 2 = 1) ↔
    b = 0x80#8 ∨ b = 0x01#8 ∨ b = 0x02#8 ∨ b = 0x83#8 := by decide

theorem charAnswer_eq (ch : LineChar) : charAnswer ch =
    if ch.byte = some 0x80#8 then some ⟨false, false⟩
    else if ch.byte = some 0x01#8 then some ⟨true, false⟩
    else if ch.byte = some 0x02#8 then some ⟨false, true⟩
    else if ch.byte = some 0x83#8 then some ⟨true, true⟩
    else none := by
  cases byte : ch.byte with
  | none => simp [charAnswer, byte]
  | some b =>
    have valid := validAnswers b
    simp only [charAnswer, byte, valid, Option.some.injEq]
    by_cases known : b = 0x80#8 ∨ b = 0x01#8 ∨ b = 0x02#8 ∨ b = 0x83#8
    · rcases known with rfl | rfl | rfl | rfl <;> rfl
    · obtain ⟨quiet, attn, svc, both⟩ : b ≠ 0x80#8 ∧ b ≠ 0x01#8 ∧ b ≠ 0x02#8 ∧ b ≠ 0x83#8 := by
        simpa only [not_or] using known
      rw [if_neg known, if_neg quiet, if_neg attn, if_neg svc, if_neg both]

/-- Settles O60. -/
theorem broadcastsAndPollsEnd : Obligations.BroadcastsAndPollsEnd := by
  refine ⟨fun s x running hx stands => ?ends, charAnswer_eq⟩
  intro cleared
  refine ⟨fun stage v => ?_, fun t => rfl, fun op ref stage found pass dest asked => ?_, fun chars stage => ?_⟩
  · rw [State.driverEnable_of hx]
    rcases stage with h | h <;> rw [h] <;> exact Bool.true_and _
  · rw [exec_broadcastSent running, State.broadcastSent_op hx stands stage found, State.endOp,
      State.deliver_broadcast pass dest asked, State.opOf_tag found]
    rfl
  · intro slot
    have each (u : State) (c : Col) : u.endSlot c (slotChars x.requestEnd c chars) = slot u c := by
      simp only [slot, slotChars_eq]
      generalize chars.filter _ = heard
      rcases heard with _ | ⟨ch, _ | ⟨ch', more⟩⟩
      · rfl
      · cases answer : charAnswer ch with
        | some a => simp only [State.endSlot_answer answer, answer]
        | none => simp only [State.endSlot_noise answer, answer]
      · rfl
    have slots (u : State) : u.takeSlots x.requestEnd chars = ([0, 1, 2, 3, 4, 5, 6, 7] : List Col).foldl slot u := by
      rw [State.takeSlots, allCols_eq]
      exact congrArg (fun f => List.foldl f u _) (funext fun u => funext fun c => each u c)
    rw [exec_pollEnd running, State.pollEnded_slots hx stands stage, slots]
    rfl

end Sys2Proof.Machine
end

section
/-! The deadlines that a CLOCK-SET takes (01 R10). -/

-- The declarations are elaborated one after another, which bounds the memory that their checks take at one time.
set_option Elab.async false

namespace Sys2Proof.Machine

open Config

/-! ## What waits at court time `v` (01 R10, R12) -/

/-- A timed reason can still act on an entry in this stage (01 R12 to R14). -/
def Stage.mayExpire : Stage → Bool
  | .booked => true
  | .loading _ => false
  | .ready _ _ => true
  | .releasing _ _ p => p.isNone
  | .opened _ _ p => p.isNone

/-- The deadline stands at or before court time `v`, and taking it would still do something. -/
def State.waits (s : State) (v : Nat) : Deadline → Prop
  | .window i => ∃ r, s.entry i = some r ∧ r.closes ≤ v ∧ r.stage.mayExpire = true
  | .hold l => ∃ i m r, (s.locker l).state.meal = some (i, m) ∧ m.deadline ≤ v ∧ s.entry i = some r
      ∧ r.stage.mayExpire = true
  | .lockout c => ∃ t, (s.column c).lockout = some t ∧ t ≤ v
  | .settle c => ∃ t, (s.column c).state = .settling (some t) ∧ t ≤ v
  | .stall l => ∃ t, (s.locker l).state = .purging (some t) ∧ min 4294967295 (t + 600) ≤ v
  | .rest l => ∃ t, (s.locker l).state = .purgeRest (some t) ∧ t ≤ v

theorem mem_pairs {α : Type} {n : Nat} (b : Bank α n) (i : Fin n) : (i, b.get i) ∈ b.pairs := by
  rw [Bank.pairs, List.mem_iff_getElem?]
  refine ⟨i.val, ?_⟩
  rw [List.getElem?_zip_eq_some]
  exact ⟨by simp, (b.get_eq i).symm⟩

theorem LockerState.meal_some {st : LockerState} {i : Slot} {m : Meal} (meal : st.meal = some (i, m)) :
    st = .holding i m ∨ st = .releasing i m ∨ ∃ d, st = .opened i m d := by
  cases st <;> simp_all [LockerState.meal]

/-- Every deadline that waits is among those a CLOCK-SET takes. -/
theorem State.mem_dueAt {s : State} {v : Nat} {d : Deadline} (waits : s.waits v d) : d ∈ s.dueAt v := by
  simp only [State.dueAt, List.mem_append, List.mem_flatMap]
  have locker (l : LockerId) {d : Deadline} (due : d ∈ lockerDue v (l, s.locker l)) :
      ∃ x ∈ s.lockers.pairs, d ∈ lockerDue v x := ⟨_, mem_pairs s.lockers l, due⟩
  have column (c : Col) {d : Deadline} (due : d ∈ columnDue v (c, s.column c)) :
      ∃ x ∈ s.columns.pairs, d ∈ columnDue v x := ⟨_, mem_pairs s.columns c, due⟩
  cases d with
  | window i =>
    obtain ⟨r, hr, late, _⟩ := waits
    refine .inl (.inl ⟨_, mem_pairs s.entries i, ?_⟩)
    rw [show s.entries.get i = some r from hr]
    simp [entryDue, late]
  | hold l =>
    obtain ⟨i, m, _, meal, late, _⟩ := waits
    refine .inl (.inr (locker l ?_))
    rcases LockerState.meal_some meal with state | state | ⟨d, state⟩ <;> simp [lockerDue, state, late]
  | lockout c =>
    obtain ⟨t, locked, late⟩ := waits
    exact .inr (column c (by simp [columnDue, locked, late]))
  | settle c =>
    obtain ⟨t, settles, late⟩ := waits
    exact .inr (column c (by simp [columnDue, settles, late]))
  | stall l =>
    obtain ⟨t, purging, late⟩ := waits
    have due : satAdd t stallSeconds ≤ v := late
    exact .inl (.inr (locker l (by simp [lockerDue, purging, due])))
  | rest l =>
    obtain ⟨t, rests, late⟩ := waits
    exact .inl (.inr (locker l (by simp [lockerDue, rests, late])))

/-! ## What taking deadlines does -/

/-- The entry's meal is being handed out. -/
def Stage.isRelease : Stage → Bool
  | .releasing _ _ _ => true
  | .opened _ _ _ => true
  | .booked | .loading _ | .ready _ _ => false

/-- Court time `v` brings the reason to the entry `r` of slot `i`. -/
def State.brings (s : State) (v : Nat) (i : Slot) (r : Reservation) (why : Reason) : Prop :=
  why = .window ∧ r.closes ≤ v
    ∨ why = .hold ∧ ∃ l m, r.stage.locker = some l ∧ (s.locker l).state.meal = some (i, m) ∧ m.deadline ≤ v

/-- What the deadlines at court time `v` may make of the entry of slot `i`. -/
def State.entryFalls (s : State) (v : Nat) (i : Slot) (e : Option Reservation) : Prop :=
  e = s.entry i
    ∨ (e = none ∧ ∃ r, s.entry i = some r ∧ r.stage.isRelease = false)
    ∨ ∃ r why, s.entry i = some r ∧ r.stage.isRelease = true ∧ s.brings v i r why
        ∧ e = some { r with stage := r.stage.withPending why }

/-- What the deadlines at court time `v` may make of a locker's state. -/
def LockerState.falls (v : Nat) (a b : LockerState) : Prop :=
  b = a
    ∨ (∃ i m st, a = .holding i m ∧ b = .spoiled st)
    ∨ (∃ t, a = .purging (some t) ∧ min 4294967295 (t + 600) ≤ v ∧ b = .blocked .purgeStall none)
    ∨ ∃ t, a = .purgeRest (some t) ∧ t ≤ v ∧ b = .purgeWait

/-- What the deadlines at court time `v` may make of a column. -/
structure Column.Falls (v : Nat) (a b : Column) : Prop where
  state : b.state = a.state ∨ ∃ t, a.state = .settling (some t) ∧ t ≤ v ∧ b.state = .active
  lockout : b.lockout = a.lockout ∨ b.lockout = none

/-- `t` is `s` after some deadlines at court time `v`. -/
structure State.Falls (v : Nat) (s t : State) : Prop where
  entry : ∀ i, s.entryFalls v i (t.entry i)
  locker : ∀ l, LockerState.falls v (s.locker l).state (t.locker l).state
  column : ∀ c, Column.Falls v (s.column c) (t.column c)

theorem Column.Falls.refl (v : Nat) (a : Column) : Column.Falls v a a := ⟨.inl rfl, .inl rfl⟩

theorem State.Falls.refl (v : Nat) (s : State) : State.Falls v s s :=
  ⟨fun _ => .inl rfl, fun _ => .inl rfl, fun _ => .refl v _⟩

theorem LockerState.falls_trans {v : Nat} {a b c : LockerState} (h : a.falls v b) (k : b.falls v c) : a.falls v c := by
  rcases h with rfl | ⟨i, m, st, rfl, rfl⟩ | ⟨t, rfl, late, rfl⟩ | ⟨t, rfl, late, rfl⟩
  · exact k
  · rcases k with rfl | ⟨_, _, _, no, _⟩ | ⟨_, no, _⟩ | ⟨_, no, _⟩
    · exact .inr (.inl ⟨i, m, st, rfl, rfl⟩)
    all_goals cases no
  · rcases k with rfl | ⟨_, _, _, no, _⟩ | ⟨_, no, _⟩ | ⟨_, no, _⟩
    · exact .inr (.inr (.inl ⟨t, rfl, late, rfl⟩))
    all_goals cases no
  · rcases k with rfl | ⟨_, _, _, no, _⟩ | ⟨_, no, _⟩ | ⟨_, no, _⟩
    · exact .inr (.inr (.inr ⟨t, rfl, late, rfl⟩))
    all_goals cases no

/-- A meal that stands after the deadlines stood before them. -/
theorem LockerState.falls_meal {v : Nat} {a b : LockerState} (h : a.falls v b) {i : Slot} {m : Meal}
    (meal : b.meal = some (i, m)) : b = a := by
  rcases h with rfl | ⟨_, _, _, _, rfl⟩ | ⟨_, _, _, rfl⟩ | ⟨_, _, _, rfl⟩
  · rfl
  all_goals cases meal

theorem Column.Falls.trans {v : Nat} {a b c : Column} (h : Column.Falls v a b) (k : Column.Falls v b c) :
    Column.Falls v a c where
  state := by
    rcases k.state with same | ⟨t, settling, late, active⟩
    · rw [same]
      exact h.state
    · rcases h.state with same | ⟨_, _, _, active'⟩
      · exact .inr ⟨t, same ▸ settling, late, active⟩
      · rw [settling] at active'
        cases active'
  lockout := by
    rcases k.lockout with same | clear
    · rw [same]
      exact h.lockout
    · exact .inr clear

theorem Stage.withPending_isRelease (st : Stage) (why : Reason) : (st.withPending why).isRelease = st.isRelease := by
  rcases st with _ | _ | _ | ⟨l, t, _ | p⟩ | ⟨l, t, _ | p⟩ <;> rfl

theorem Stage.withPending_locker (st : Stage) (why : Reason) : (st.withPending why).locker = st.locker := by
  rcases st with _ | _ | _ | ⟨l, t, _ | p⟩ | ⟨l, t, _ | p⟩ <;> rfl

/-- The first reason that becomes pending stands (01 R14). -/
theorem Stage.withPending_again {st : Stage} (release : st.isRelease = true) (a b : Reason) :
    (st.withPending a).withPending b = st.withPending a := by
  rcases st with _ | _ | _ | ⟨l, t, _ | p⟩ | ⟨l, t, _ | p⟩
  case booked | loading | ready => cases release
  all_goals rfl

theorem Stage.withPending_settled {st : Stage} (release : st.isRelease = true) (why : Reason) :
    (st.withPending why).mayExpire = false := by
  rcases st with _ | _ | _ | ⟨l, t, _ | p⟩ | ⟨l, t, _ | p⟩
  case booked | loading | ready => cases release
  all_goals rfl

theorem State.Falls.brings {v : Nat} {s t : State} (h : State.Falls v s t) {i : Slot} {r : Reservation} {why : Reason}
    (brings : t.brings v i r why) : s.brings v i r why := by
  rcases brings with window | ⟨hold, l, m, bound, meal, late⟩
  · exact .inl window
  · rw [LockerState.falls_meal (h.locker l) meal] at meal
    exact .inr ⟨hold, l, m, bound, meal, late⟩

theorem State.Falls.trans {v : Nat} {s t u : State} (h : State.Falls v s t) (k : State.Falls v t u) :
    State.Falls v s u where
  entry i := by
    rcases k.entry i with same | ⟨gone, r, hr, ends⟩ | ⟨r, why, hr, release, brings, became⟩
    · rw [same]
      exact h.entry i
    · rcases h.entry i with same | ⟨no, _⟩ | ⟨q, why, hq, release, _, became⟩
      · exact .inr (.inl ⟨gone, r, same ▸ hr, ends⟩)
      · rw [hr] at no
        cases no
      · rw [hr] at became
        obtain rfl := Option.some.inj became
        rw [Stage.withPending_isRelease, release] at ends
        cases ends
    · rcases h.entry i with same | ⟨no, _⟩ | ⟨q, first, hq, started, brings', became'⟩
      · exact .inr (.inr ⟨r, why, same ▸ hr, release, h.brings brings, became⟩)
      · rw [hr] at no
        cases no
      · rw [hr] at became'
        obtain rfl := Option.some.inj became'
        rw [Stage.withPending_again started] at became
        exact .inr (.inr ⟨q, first, hq, started, brings', became⟩)
  locker l := LockerState.falls_trans (h.locker l) (k.locker l)
  column c := (h.column c).trans (k.column c)

/-- Nothing comes to wait by taking deadlines. -/
theorem State.Falls.waits {v : Nat} {s t : State} (h : State.Falls v s t) {d : Deadline} (waits : t.waits v d) :
    s.waits v d := by
  have entry {i : Slot} {r : Reservation} (hr : t.entry i = some r) (may : r.stage.mayExpire = true) :
      s.entry i = some r := by
    rcases h.entry i with same | ⟨no, _⟩ | ⟨q, why, _, release, _, became⟩
    · rw [← same, hr]
    · rw [hr] at no
      cases no
    · rw [hr] at became
      obtain rfl := Option.some.inj became
      rw [Stage.withPending_settled release] at may
      cases may
  cases d with
  | window i =>
    obtain ⟨r, hr, late, may⟩ := waits
    exact ⟨r, entry hr may, late, may⟩
  | hold l =>
    obtain ⟨i, m, r, meal, late, hr, may⟩ := waits
    rw [LockerState.falls_meal (h.locker l) meal] at meal
    exact ⟨i, m, r, meal, late, entry hr may, may⟩
  | lockout c =>
    obtain ⟨u, locked, late⟩ := waits
    rcases (h.column c).lockout with same | clear
    · exact ⟨u, same ▸ locked, late⟩
    · rw [locked] at clear
      cases clear
  | settle c =>
    obtain ⟨u, settles, late⟩ := waits
    rcases (h.column c).state with same | ⟨_, _, _, active⟩
    · exact ⟨u, same ▸ settles, late⟩
    · rw [settles] at active
      cases active
  | stall l =>
    obtain ⟨u, purging, late⟩ := waits
    rcases h.locker l with same | ⟨_, _, _, _, no⟩ | ⟨_, _, _, no⟩ | ⟨_, _, _, no⟩
    · exact ⟨u, same ▸ purging, late⟩
    all_goals
      rw [purging] at no
      cases no
  | rest l =>
    obtain ⟨u, rests, late⟩ := waits
    rcases h.locker l with same | ⟨_, _, _, _, no⟩ | ⟨_, _, _, no⟩ | ⟨_, _, _, no⟩
    · exact ⟨u, same ▸ rests, late⟩
    all_goals
      rw [rests] at no
      cases no

/-! ## One deadline (01 R10) -/

theorem State.Falls.tables {v : Nat} {s t u : State} (h : State.Falls v s t) (entries : u.entries = t.entries)
    (lockers : u.lockers = t.lockers) (columns : u.columns = t.columns) : State.Falls v s u where
  entry i := by rw [State.entry, entries]; exact h.entry i
  locker l := by rw [show u.locker l = t.locker l by rw [State.locker, lockers]; rfl]; exact h.locker l
  column c := by rw [show u.column c = t.column c by rw [State.column, columns]; rfl]; exact h.column c

theorem State.Falls.setEntry {v : Nat} {s t : State} (h : State.Falls v s t) {i : Slot} {e : Option Reservation}
    (falls : s.entryFalls v i e) : State.Falls v s (t.setEntry i e) where
  entry j := by
    rw [State.entry_setEntry]
    split
    · next same => exact same ▸ falls
    · exact h.entry j
  locker := h.locker
  column := h.column

theorem State.Falls.setLocker {v : Nat} {s t : State} (h : State.Falls v s t) {l : LockerId} {lk : Locker}
    (falls : (s.locker l).state.falls v lk.state) : State.Falls v s (t.setLocker l lk) where
  entry := h.entry
  locker k := by
    rw [State.locker_setLocker]
    split
    · next same => exact same ▸ falls
    · exact h.locker k
  column := h.column

theorem State.setColumn_falls {v : Nat} {s : State} {c : Col} {col : Column}
    (falls : Column.Falls v (s.column c) col) : State.Falls v s (s.setColumn c col) where
  entry _ := .inl rfl
  locker _ := .inl rfl
  column k := by
    rw [State.column_setColumn]
    split
    · next same => exact same ▸ falls
    · exact .refl v _

/-- The locker at which an entry is READY holds its meal (02 R32). -/
theorem State.BindingLaw.holding_of_ready {s : State} (law : s.BindingLaw) {i : Slot} {r : Reservation}
    (hr : s.entry i = some r) {l : LockerId} {at_ : Nat} (ready : r.stage = .ready l at_) :
    ∃ m, (s.locker l).state = .holding i m := by
  have slot := law.2 i r l hr (by rw [ready]; rfl)
  obtain ⟨q, hq, fits⟩ := law.1 l i slot
  obtain rfl := Option.some.inj (hr.symm.trans hq)
  rw [ready] at fits
  cases state : (s.locker l).state with
  | holding j m =>
    rw [state] at slot
    exact ⟨m, by rw [Option.some.inj slot]⟩
  | _ => rw [state] at fits; exact fits.elim

/-- A timed reason that is brought to a meal's entry leaves nothing to bring. -/
theorem State.bringTimed_falls {v : Nat} {s : State} (law : s.BindingLaw) {i : Slot} {r : Reservation}
    (hr : s.entry i = some r) (stored : r.stage ≠ .booked) (inside : ∀ l, r.stage ≠ .loading l) {why : Reason}
    (timed : why ≠ .notLoaded) (brings : s.brings v i r why) :
    State.Falls v s (s.bringTimed i why)
      ∧ ∀ q, (s.bringTimed i why).entry i = some q → q.stage.mayExpire = false := by
  have pending {e : Option Reservation} (release : r.stage.isRelease = true)
      (became : e = some { r with stage := r.stage.withPending why }) :
      State.Falls v s (s.setEntry i e) ∧ ∀ q, (s.setEntry i e).entry i = some q → q.stage.mayExpire = false := by
    refine ⟨(State.Falls.refl v s).setEntry (.inr (.inr ⟨r, why, hr, release, brings, became⟩)), fun q hq => ?_⟩
    rw [State.entry_setEntry, if_pos rfl, became] at hq
    obtain rfl := Option.some.inj hq
    exact Stage.withPending_settled release why
  cases stage : r.stage with
  | booked => exact absurd stage stored
  | loading l => exact absurd stage (inside l)
  | ready l at_ =>
    obtain ⟨m, holding⟩ := law.holding_of_ready hr stage
    rw [State.bringTimed_ready hr stage timed]
    have ended : State.Falls v s ((s.enterLocker l (.spoiled (some ⟨r.tag, why⟩))).setEntry i none) :=
      ((State.Falls.refl v s).setLocker (.inr (.inl ⟨i, m, _, holding, rfl⟩))).setEntry
        (.inr (.inl ⟨rfl, r, hr, by rw [stage]; rfl⟩))
    refine ⟨ended.tables (by simp) (by simp) (by simp), fun q hq => ?_⟩
    rw [show State.entry _ i = none by simp [State.entry, State.setEntry]] at hq
    cases hq
  | releasing l at_ p =>
    rw [State.bringTimed, hr]
    simp only [stage]
    exact pending (by rw [stage]; rfl) (by rw [stage])
  | opened l at_ p =>
    rw [State.bringTimed, hr]
    simp only [stage]
    exact pending (by rw [stage]; rfl) (by rw [stage])

section

variable {s : State} {v : Nat} (court : s.court = some v)
include court

theorem State.windowDue_falls (law : s.BindingLaw) (i : Slot) :
    State.Falls v s (s.windowDue i) ∧ ¬(s.windowDue i).waits v (.window i) := by
  cases hr : s.entry i with
  | none =>
    have same : s.windowDue i = s := by simp only [State.windowDue, hr]
    rw [same]
    exact ⟨.refl v s, fun ⟨r, some_, _⟩ => by rw [hr] at some_; cases some_⟩
  | some r =>
    have overdue := State.overdue_of_court court r
    by_cases late : r.closes ≤ v
    case neg =>
      rw [State.windowDue_early hr (Bool.eq_false_iff.mpr (mt overdue.mp late))]
      refine ⟨.refl v s, fun ⟨q, hq, due, _⟩ => late ?_⟩
      rw [hr] at hq
      exact Option.some.inj hq ▸ due
    by_cases booked : r.stage = .booked
    · rw [State.windowDue_booked hr (overdue.mpr late) booked]
      have ended : State.Falls v s (s.setEntry i none) :=
        (State.Falls.refl v s).setEntry (.inr (.inl ⟨rfl, r, hr, by rw [booked]; rfl⟩))
      refine ⟨ended.tables (by simp) (by simp) (by simp), fun ⟨q, hq, _⟩ => ?_⟩
      rw [show State.entry _ i = none by simp [State.entry, State.setEntry]] at hq
      cases hq
    by_cases loading : ∃ l, r.stage = .loading l
    · obtain ⟨l, loading⟩ := loading
      rw [State.windowDue_loading hr loading]
      refine ⟨.refl v s, fun ⟨q, hq, _, may⟩ => ?_⟩
      rw [hr] at hq
      rw [← Option.some.inj hq, loading] at may
      cases may
    · have inside (l : LockerId) : r.stage ≠ .loading l := fun h => loading ⟨l, h⟩
      rw [State.windowDue_brings hr (overdue.mpr late) booked inside]
      obtain ⟨falls, settled⟩ := State.bringTimed_falls law hr booked inside (by decide) (.inl ⟨rfl, late⟩)
      exact ⟨falls, fun ⟨q, hq, _, may⟩ => by rw [settled q hq] at may; cases may⟩

theorem State.holdDue_falls (law : s.BindingLaw) (l : LockerId) :
    State.Falls v s (s.holdDue l) ∧ ¬(s.holdDue l).waits v (.hold l) := by
  cases meal : (s.locker l).state.meal with
  | none =>
    rw [State.holdDue_idle (.inl meal)]
    exact ⟨.refl v s, fun ⟨i, m, _, some_, _⟩ => by rw [meal] at some_; cases some_⟩
  | some held =>
    obtain ⟨i, m⟩ := held
    rw [State.holdDue_meal meal court]
    by_cases late : m.deadline ≤ v
    · rw [if_pos late]
      obtain ⟨r, hr, fits⟩ := law.1 l i (by rcases LockerState.meal_some meal with h | h | ⟨_, h⟩ <;> rw [h] <;> rfl)
      obtain ⟨stored, inside, bound⟩ : r.stage ≠ .booked ∧ (∀ k, r.stage ≠ .loading k) ∧ r.stage.locker = some l := by
        rcases LockerState.meal_some meal with h | h | ⟨_, h⟩
        all_goals
          rw [h] at fits
          cases stage : r.stage <;> rw [stage] at fits <;> simp_all [LockerState.fits, Stage.locker]
      obtain ⟨falls, settled⟩ :=
        State.bringTimed_falls law hr stored inside (by decide) (.inr ⟨rfl, l, m, bound, meal, late⟩)
      refine ⟨falls, fun ⟨j, _, q, still, _, hq, may⟩ => ?_⟩
      rw [LockerState.falls_meal (falls.locker l) still, meal] at still
      obtain ⟨rfl, _⟩ := Prod.mk.inj (Option.some.inj still)
      rw [settled q hq] at may
      cases may
    · rw [if_neg late]
      refine ⟨.refl v s, fun ⟨_, n, _, again, due, _⟩ => late ?_⟩
      rw [meal] at again
      exact (Prod.mk.inj (Option.some.inj again)).2 ▸ due

theorem State.lockoutDue_falls (c : Col) :
    State.Falls v s (s.lockoutDue c) ∧ ¬(s.lockoutDue c).waits v (.lockout c) := by
  cases locked : (s.column c).lockout with
  | none =>
    rw [State.lockoutDue_none locked]
    exact ⟨.refl v s, fun ⟨t, some_, _⟩ => by rw [locked] at some_; cases some_⟩
  | some t =>
    rw [State.lockoutDue_some court locked]
    split
    · refine ⟨State.setColumn_falls ⟨.inl rfl, .inr rfl⟩, fun ⟨t, some_, _⟩ => ?_⟩
      rw [State.column_setColumn, if_pos rfl] at some_
      cases some_
    · next early =>
      refine ⟨.refl v s, fun ⟨u, some_, late⟩ => early ?_⟩
      rw [locked] at some_
      exact Option.some.inj some_ ▸ late

theorem State.settleDue_falls (c : Col) :
    State.Falls v s (s.settleDue c) ∧ ¬(s.settleDue c).waits v (.settle c) := by
  by_cases settling : ∃ t, (s.column c).state = .settling (some t)
  · obtain ⟨t, settling⟩ := settling
    rw [State.settleDue_some court settling]
    split
    · next late =>
      have active : State.Falls v s (s.setColumn c { s.column c with state := .active }) :=
        State.setColumn_falls ⟨.inr ⟨t, settling, late, rfl⟩, .inl rfl⟩
      refine ⟨active.tables (by simp) (by simp) (by simp), fun ⟨u, still, _⟩ => ?_⟩
      simp at still
    · next early =>
      refine ⟨.refl v s, fun ⟨u, still, late⟩ => early ?_⟩
      rw [settling] at still
      cases still
      exact late
  · have same : s.settleDue c = s := by
      unfold State.settleDue
      split
      · next h _ => exact absurd ⟨_, h⟩ settling
      · rfl
    rw [same]
    exact ⟨.refl v s, fun ⟨t, h, _⟩ => settling ⟨t, h⟩⟩

theorem State.stallDue_falls (l : LockerId) :
    State.Falls v s (s.stallDue l) ∧ ¬(s.stallDue l).waits v (.stall l) := by
  by_cases purging : ∃ t, (s.locker l).state = .purging (some t)
  · obtain ⟨t, purging⟩ := purging
    rw [State.stallDue_some court purging]
    split
    · next late =>
      rw [State.takeFault_stall purging]
      have blocked : State.Falls v s (s.setLocker l (s.blockedRecord l .purgeStall none)) :=
        (State.Falls.refl v s).setLocker (.inr (.inr (.inl ⟨t, purging, late, rfl⟩)))
      refine ⟨blocked.tables (by simp) (by simp) (by simp), fun ⟨u, still, _⟩ => ?_⟩
      simp [State.blockedRecord, State.locker, State.setLocker] at still
    · next early =>
      refine ⟨.refl v s, fun ⟨u, still, late⟩ => early ?_⟩
      rw [purging] at still
      cases still
      exact late
  · have same : s.stallDue l = s := by
      unfold State.stallDue
      split
      · next h _ => exact absurd ⟨_, h⟩ purging
      · rfl
    rw [same]
    exact ⟨.refl v s, fun ⟨t, h, _⟩ => purging ⟨t, h⟩⟩

theorem State.restDue_falls (l : LockerId) :
    State.Falls v s (s.restDue l) ∧ ¬(s.restDue l).waits v (.rest l) := by
  by_cases rests : ∃ t, (s.locker l).state = .purgeRest (some t)
  · obtain ⟨t, rests⟩ := rests
    rw [State.restDue_some court rests]
    split
    · next late =>
      refine ⟨(State.Falls.refl v s).setLocker (.inr (.inr (.inr ⟨t, rests, late, rfl⟩))), fun ⟨u, still, _⟩ => ?_⟩
      simp [Locker.enter] at still
    · next early =>
      refine ⟨.refl v s, fun ⟨u, still, late⟩ => early ?_⟩
      rw [rests] at still
      cases still
      exact late
  · have same : s.restDue l = s := by
      unfold State.restDue
      split
      · next h _ => exact absurd ⟨_, h⟩ rests
      · rfl
    rw [same]
    exact ⟨.refl v s, fun ⟨t, h, _⟩ => rests ⟨t, h⟩⟩

theorem State.takeDeadline_falls (law : s.BindingLaw) (d : Deadline) :
    State.Falls v s (s.takeDeadline d) ∧ ¬(s.takeDeadline d).waits v d := by
  cases d with
  | window i => exact State.windowDue_falls court law i
  | hold l => exact State.holdDue_falls court law l
  | lockout c => exact State.lockoutDue_falls court c
  | settle c => exact State.settleDue_falls court c
  | stall l => exact State.stallDue_falls court l
  | rest l => exact State.restDue_falls court l

end

/-! ## All of them, in whatever order (01 R10) -/

/-- The order of the deadlines is drawn anew before each (log 7). -/
def State.draws (s : State) : State := { s with choices := s.choices + 1 }

theorem State.takeDeadlines_next (n : Nat) (s : State) (d e : Deadline) (rest : List Deadline) :
    ∃ k, ∃ inside : k < (d :: e :: rest).length, State.takeDeadlines (n + 1) s (d :: e :: rest) =
      State.takeDeadlines n (s.draws.takeDeadline (d :: e :: rest)[k]) ((d :: e :: rest).eraseIdx k) := by
  have inside : dueOrder s.choices % (d :: e :: rest).length < (d :: e :: rest).length := Nat.mod_lt _ (by simp)
  refine ⟨_, inside, ?_⟩
  conv_lhs => rw [State.takeDeadlines]
  rw [List.getElem?_eq_getElem inside]
  rfl

section

variable {inv : State → Prop} {rel : State → State → Prop} {waits : State → Deadline → Prop}

/-- Where each deadline moves the state by `rel` and then waits no more, and nothing comes to wait by `rel`: what waits
after all of them waited before and is none of them. -/
theorem State.takeDeadlines_rel (refl : ∀ s, rel s s) (trans : ∀ {s t u}, rel s t → rel t u → rel s u)
    (waited : ∀ {s t d}, rel s t → waits t d → waits s d) (drawn : ∀ {s}, inv s → inv s.draws ∧ rel s s.draws)
    (step : ∀ {s} (d : Deadline), inv s →
      inv (s.takeDeadline d) ∧ rel s (s.takeDeadline d) ∧ ¬waits (s.takeDeadline d) d)
    {fuel : Nat} {s : State} {ds : List Deadline} (covers : ds.length ≤ fuel) (holds : inv s) :
    rel s (State.takeDeadlines fuel s ds) ∧ ∀ d, waits (State.takeDeadlines fuel s ds) d → waits s d ∧ d ∉ ds := by
  induction fuel generalizing s ds with
  | zero =>
    obtain rfl := List.length_eq_zero_iff.mp (Nat.le_zero.mp covers)
    exact ⟨refl s, fun d waits => ⟨waits, List.not_mem_nil⟩⟩
  | succ n ih =>
    match ds with
    | [] => exact ⟨refl s, fun d waits => ⟨waits, List.not_mem_nil⟩⟩
    | [d] =>
      obtain ⟨_, moved, settled⟩ := step d holds
      refine ⟨moved, fun e waits => ⟨waited moved waits, fun mem => settled ?_⟩⟩
      obtain rfl := List.mem_singleton.mp mem
      exact waits
    | d :: e :: rest =>
      obtain ⟨k, inside, next⟩ := State.takeDeadlines_next n s d e rest
      obtain ⟨ready, draw⟩ := drawn holds
      obtain ⟨still, moved, settled⟩ := step (d :: e :: rest)[k] ready
      have shorter : ((d :: e :: rest).eraseIdx k).length ≤ n := by
        rw [List.length_eraseIdx_of_lt inside]
        exact Nat.sub_le_of_le_add covers
      obtain ⟨more, outside⟩ := ih shorter still
      have all := trans (trans draw moved) more
      rw [next]
      refine ⟨all, fun x waits => ⟨waited all waits, fun mem => ?_⟩⟩
      obtain ⟨again, left⟩ := outside x waits
      obtain ⟨j, hj, rfl⟩ := List.mem_iff_getElem.mp mem
      by_cases same : j = k
      · subst same
        exact settled again
      · exact left (List.mem_eraseIdx_iff_getElem.mpr ⟨j, hj, same, rfl⟩)

end

theorem State.takeDeadline_court (s : State) (d : Deadline) : (s.takeDeadline d).court = s.court := by
  rw [(s.takeDeadline_action d).outside]
  rfl

theorem State.takeDeadlines_falls {v : Nat} {fuel : Nat} {s : State} {ds : List Deadline} (covers : ds.length ≤ fuel)
    (court : s.court = some v) (law : s.BindingLaw) :
    State.Falls v s (State.takeDeadlines fuel s ds)
      ∧ ∀ d, (State.takeDeadlines fuel s ds).waits v d → s.waits v d ∧ d ∉ ds := by
  refine State.takeDeadlines_rel (inv := fun s => s.court = some v ∧ s.BindingLaw) (rel := State.Falls v)
    (waits := fun s d => s.waits v d) (State.Falls.refl v) State.Falls.trans (fun moved => moved.waits) ?_ ?_
    covers ⟨court, law⟩
  · rintro s holds
    exact ⟨holds, (State.Falls.refl v s).tables rfl rfl rfl⟩
  · rintro s d ⟨court, law⟩
    exact ⟨⟨(s.takeDeadline_court d).trans court, (s.takeDeadline_action d).keeps.binding law⟩,
      State.takeDeadline_falls court law d⟩

/-- What the deadlines make of the columns asks nothing of the entries and the lockers. -/
theorem State.takeDeadlines_columns {v : Nat} {fuel : Nat} {s : State} {ds : List Deadline} (covers : ds.length ≤ fuel)
    (court : s.court = some v) :
    (∀ c, Column.Falls v (s.column c) ((State.takeDeadlines fuel s ds).column c))
      ∧ ∀ c, (State.takeDeadlines fuel s ds).waits v (.settle c) → Deadline.settle c ∉ ds := by
  have all := State.takeDeadlines_rel (inv := fun s => s.court = some v)
    (rel := fun s t => ∀ c, Column.Falls v (s.column c) (t.column c))
    (waits := fun s d => ∃ c, d = .settle c ∧ s.waits v d) (fun s c => .refl v _) (fun h k c => (h c).trans (k c))
    ?_ (fun holds => ⟨holds, fun c => .refl v _⟩) ?_ covers court
  · exact ⟨all.1, fun c waits => (all.2 _ ⟨c, rfl, waits⟩).2⟩
  · rintro s t _ moved ⟨c, rfl, u, settles, late⟩
    refine ⟨c, rfl, u, ?_, late⟩
    rcases (moved c).state with same | ⟨_, _, _, active⟩
    · exact same ▸ settles
    · rw [settles] at active
      cases active
  · intro s d court
    refine ⟨(s.takeDeadline_court d).trans court, ?_⟩
    have still {t : State} (acts : s.MealActs t) (c : Col) : Column.Falls v (s.column c) (t.column c) := by
      rw [acts.outside]
      exact .refl v _
    cases d with
    | window i => exact ⟨still (s.windowDue_mealActs i), fun ⟨_, no, _⟩ => by cases no⟩
    | hold l =>
      refine ⟨still ?_, fun ⟨_, no, _⟩ => by cases no⟩
      show s.MealActs (s.holdDue l)
      unfold State.holdDue
      split
      · split
        · exact s.bringTimed_mealActs _ _
        · exact .refl s
      · exact .refl s
    | lockout c => exact ⟨(State.lockoutDue_falls court c).1.column, fun ⟨_, no, _⟩ => by cases no⟩
    | settle c =>
      obtain ⟨falls, settled⟩ := State.settleDue_falls court c
      exact ⟨falls.column, fun ⟨_, _, waits⟩ => settled waits⟩
    | stall l => exact ⟨(State.stallDue_falls court l).1.column, fun ⟨_, no, _⟩ => by cases no⟩
    | rest l => exact ⟨(State.restDue_falls court l).1.column, fun ⟨_, no, _⟩ => by cases no⟩

end Sys2Proof.Machine
end

section
/-! CLOCK-SET (01 R8 to R10). -/

-- The declarations are elaborated one after another, which bounds the memory that their checks take at one time.
set_option Elab.async false

namespace Sys2Proof.Machine

open Config

/-! ## The value is written (01 R8, R9) -/

section

variable {s : State} {v : Nat}

theorem State.writeCourt_set (isSet : s.court ≠ none) :
    s.writeCourt v = { s with court := some v, courtNext := s.now + 1000000 } := by
  obtain ⟨t, court⟩ := Option.ne_none_iff_exists'.mp isSet
  simp only [State.writeCourt, court]
  rfl

theorem State.writeCourt_starts (unset : s.court = none) (starting : s.mode = .starting)
    (walked : s.walkEnded = true) :
    s.writeCourt v = State.queueNotice { s.filled v with mode := .run, ledLow := true } (.mode .run) := by
  have filled : s.writeCourt v = (s.filled v).startIfReady := by
    simp only [State.writeCourt, unset]
    rfl
  rw [filled, State.startIfReady, if_pos (by simp [State.filled, starting, walked])]
  rfl

theorem State.writeCourt_waits (unset : s.court = none) (other : ¬(s.mode = .starting ∧ s.walkEnded = true)) :
    s.writeCourt v = s.filled v := by
  have filled : s.writeCourt v = (s.filled v).startIfReady := by
    simp only [State.writeCourt, unset]
    rfl
  rw [filled, State.startIfReady, if_neg (by simpa [State.filled] using other)]

/-- Writing the value takes no deadline: the tables are those of before, or those in which the times held as UNSET are
written. -/
theorem State.writeCourt_outside (s : State) (v : Nat) : let w := s.writeCourt v
    w = { s with court := some v, courtNext := s.now + 1000000, lockers := w.lockers, columns := w.columns
                 clockMark := w.clockMark, mode := w.mode, ledLow := w.ledLow, notices := w.notices, gap := w.gap
                 counters := w.counters } := by
  intro w
  by_cases unset : s.court = none
  · by_cases ready : s.mode = .starting ∧ s.walkEnded = true
    · obtain ⟨starting, walked⟩ := ready
      simp only [w, State.writeCourt_starts unset starting walked]
      unfold State.queueNotice
      split <;> rfl
    · simp only [w, State.writeCourt_waits unset ready]
      rfl
  · simp only [w, State.writeCourt_set unset]

theorem State.writeCourt_filled (unset : s.court = none) :
    (∀ l, (s.writeCourt v).locker l = fillLocker v (s.locker l))
      ∧ ∀ c, (s.writeCourt v).column c = fillColumn v (s.column c) := by
  have tables : (s.writeCourt v).lockers = (s.filled v).lockers ∧ (s.writeCourt v).columns = (s.filled v).columns := by
    by_cases ready : s.mode = .starting ∧ s.walkEnded = true
    · rw [State.writeCourt_starts unset ready.1 ready.2]
      simp
    · rw [State.writeCourt_waits unset ready]
      exact ⟨rfl, rfl⟩
  refine ⟨fun l => ?_, fun c => ?_⟩
  · rw [State.locker, tables.1]
    exact s.filled_locker v l
  · rw [State.column, tables.2]
    exact s.filled_column v c

theorem fillLocker_meal (v : Nat) (lk : Locker) : (fillLocker v lk).state.meal = lk.state.meal := by
  unfold fillLocker
  split
  · next purging => rw [purging]; rfl
  · next resting => rw [resting]; rfl
  · rfl

theorem State.writeCourt_meal (s : State) (v : Nat) (l : LockerId) :
    ((s.writeCourt v).locker l).state.meal = (s.locker l).state.meal := by
  by_cases unset : s.court = none
  · rw [(State.writeCourt_filled unset).1 l]
    exact fillLocker_meal v _
  · rw [State.writeCourt_set unset]
    rfl

theorem State.writeCourt_entry (s : State) (v : Nat) (i : Slot) : (s.writeCourt v).entry i = s.entry i := by
  rw [s.writeCourt_outside v]
  rfl

theorem State.writeCourt_court (s : State) (v : Nat) : (s.writeCourt v).court = some v := by
  rw [s.writeCourt_outside v]

end

/-! ## The deadlines of the new value (01 R10) -/

theorem State.setCourt_court (s : State) (v : Nat) : (s.setCourt v).court = some v := by
  rw [(s.setCourt_action v).outside]
  exact s.writeCourt_court v

theorem State.setCourt_same {s : State} {v : Nat} (same : s.court = some v) : s.setCourt v = s.writeCourt v := if_pos same

section

variable {s : State} {v : Nat}

theorem State.setCourt_falls (moved : s.court ≠ some v) (high : v ≤ maxCourt) (law : s.BindingLaw) :
    State.Falls v (s.writeCourt v) (s.setCourt v) ∧ (∀ d, ¬(s.setCourt v).waits v d) ∧ (s.setCourt v).BindingLaw := by
  have binding := (State.writeCourt_keeps high).binding law
  have taken : s.setCourt v = _ := if_neg moved
  obtain ⟨falls, outside⟩ := State.takeDeadlines_falls (ds := (s.writeCourt v).dueAt v) le_rfl (s.writeCourt_court v) binding
  rw [← taken] at falls outside
  exact ⟨falls, fun d waits => (outside d waits).2 (State.mem_dueAt (outside d waits).1),
    (s.setCourt_action v).keeps.binding binding⟩

theorem State.setCourt_columns (moved : s.court ≠ some v) :
    (∀ c, Column.Falls v ((s.writeCourt v).column c) ((s.setCourt v).column c))
      ∧ ∀ c, ¬(s.setCourt v).waits v (.settle c) := by
  have taken : s.setCourt v = _ := if_neg moved
  obtain ⟨falls, outside⟩ := State.takeDeadlines_columns (ds := (s.writeCourt v).dueAt v) le_rfl (s.writeCourt_court v)
  rw [← taken] at falls outside
  refine ⟨falls, fun c waits => outside c waits (State.mem_dueAt ?_)⟩
  obtain ⟨t, settles, late⟩ := waits
  refine ⟨t, ?_, late⟩
  rcases (falls c).state with same | ⟨_, _, _, active⟩
  · exact same ▸ settles
  · rw [settles] at active
    cases active

end

/-! ## The entries that are being handed out (01 R14) -/

/-- The stages in which an expiry waits: RELEASING and OPEN. -/
def IsRelease (stage : LockerId → Nat → Option Reason → Stage) : Prop := stage = .releasing ∨ stage = .opened

section

variable {stage : LockerId → Nat → Option Reason → Stage} (release : IsRelease stage) {l : LockerId} {t : Nat}
include release

theorem IsRelease.isRelease (p : Option Reason) : (stage l t p).isRelease = true := by
  rcases release with rfl | rfl <;> rfl

theorem IsRelease.mayExpire (p : Option Reason) : (stage l t p).mayExpire = p.isNone := by
  rcases release with rfl | rfl <;> rfl

theorem IsRelease.locker (p : Option Reason) : (stage l t p).locker = some l := by
  rcases release with rfl | rfl <;> rfl

theorem IsRelease.withPending (p : Option Reason) (why : Reason) :
    (stage l t p).withPending why = stage l t (some (p.getD why)) := by
  rcases release with rfl | rfl <;> cases p <;> rfl

theorem IsRelease.of_withPending {st : Stage} (is : st.isRelease = true) {why : Reason} {q : Option Reason}
    (became : st.withPending why = stage l t q) : ∃ p, st = stage l t p := by
  rcases release with rfl | rfl <;> rcases st with _ | _ | _ | ⟨k, u, _ | p⟩ | ⟨k, u, _ | p⟩ <;>
    simp_all [Stage.withPending, Stage.isRelease]

theorem IsRelease.meal {s : State} (law : s.BindingLaw) {i : Slot} {r : Reservation} (hr : s.entry i = some r)
    {p : Option Reason} (is : r.stage = stage l t p) : ∃ m, (s.locker l).state.meal = some (i, m) := by
  have slot := law.2 i r l hr (by rw [is, release.locker])
  obtain ⟨q, hq, fits⟩ := law.1 l i slot
  obtain rfl := Option.some.inj (hr.symm.trans hq)
  rw [is] at fits
  cases state : (s.locker l).state <;> rw [state] at fits slot <;> rcases release with rfl | rfl <;>
    simp_all [LockerState.fits, LockerState.slot, LockerState.meal]

end

theorem Reservation.with_stage {r : Reservation} {st : Stage} (is : r.stage = st) : { r with stage := st } = r := by
  subst is
  rfl

/-- What a CLOCK-SET to `v` may make of the expiry pending `p` of the entry `r` of slot `i` at locker `l`. -/
def State.keepsPending (s : State) (v : Nat) (i : Slot) (r : Reservation) (l : LockerId) (p q : Option Reason) : Prop :=
  let closed := r.closes ≤ v
  let held := ∃ m, (s.locker l).state.meal = some (i, m) ∧ m.deadline ≤ v
  (∀ why, p = some why → q = some why)
    ∧ (p = none → (closed ∨ held → q ≠ none) ∧ ∀ why, q = some why → why = .window ∧ closed ∨ why = .hold ∧ held)

section

variable {s : State} {v : Nat} (moved : s.court ≠ some v) (high : v ≤ maxCourt) (law : s.BindingLaw)
  {stage : LockerId → Nat → Option Reason → Stage} (release : IsRelease stage) {i : Slot} {r : Reservation}
  {l : LockerId} {t : Nat}
include moved high law release

/-- An entry that is being handed out stays so, with an expiry pending exactly where a timed reason has come. -/
theorem State.setCourt_keeps {p : Option Reason} (hr : s.entry i = some r) (is : r.stage = stage l t p) :
    ∃ q, s.keepsPending v i r l p q ∧ (s.setCourt v).entry i = some { r with stage := stage l t q } := by
  obtain ⟨falls, settled, binding⟩ := State.setCourt_falls moved high law
  have before : (s.writeCourt v).entry i = some r := (s.writeCourt_entry v i).trans hr
  have releasing : r.stage.isRelease = true := by rw [is, release.isRelease]
  rcases falls.entry i with same | ⟨_, q, hq, no⟩ | ⟨q, why, hq, _, brings, became⟩
  · have after : (s.setCourt v).entry i = some r := same.trans before
    refine ⟨p, ⟨fun _ => id, fun none_ => ⟨fun due => ?_, fun why some_ => by rw [none_] at some_; cases some_⟩⟩,
      by rw [after, Reservation.with_stage is]⟩
    have may : r.stage.mayExpire = true := by rw [is, release.mayExpire, none_]; rfl
    rcases due with closed | ⟨m, meal, late⟩
    · exact absurd ⟨r, after, closed, may⟩ (settled (.window i))
    · obtain ⟨n, still⟩ := release.meal binding after is
      have stood := LockerState.falls_meal (falls.locker l) still
      rw [stood, s.writeCourt_meal v l, meal] at still
      obtain ⟨_, rfl⟩ := Prod.mk.inj (Option.some.inj still)
      exact absurd ⟨i, m, r, by rw [stood, s.writeCourt_meal v l, meal], late, after, may⟩ (settled (.hold l))
  · rw [before] at hq
    obtain rfl := Option.some.inj hq
    rw [releasing] at no
    cases no
  · rw [before] at hq
    obtain rfl := Option.some.inj hq
    refine ⟨some (p.getD why), ⟨fun w some_ => by rw [some_]; rfl, fun none_ => ⟨fun _ => nofun, fun w some_ => ?_⟩⟩,
      by rw [became, is, release.withPending]⟩
    rw [none_] at some_
    obtain rfl : why = w := Option.some.inj some_
    rcases brings with window | ⟨hold, k, m, bound, meal, late⟩
    · exact .inl window
    · rw [is, release.locker] at bound
      obtain rfl := Option.some.inj bound
      exact .inr ⟨hold, m, (s.writeCourt_meal v l).symm.trans meal, late⟩

/-- No entry comes to be handed out. -/
theorem State.setCourt_kept {q : Option Reason} (hr : (s.setCourt v).entry i = some r) (is : r.stage = stage l t q) :
    ∃ p, s.entry i = some { r with stage := stage l t p } := by
  obtain ⟨falls, _, _⟩ := State.setCourt_falls moved high law
  rcases falls.entry i with same | ⟨no, _⟩ | ⟨o, why, ho, releasing, _, became⟩
  · refine ⟨q, ?_⟩
    rw [Reservation.with_stage is, ← hr, same, s.writeCourt_entry]
  · rw [hr] at no
    cases no
  · rw [hr] at became
    obtain rfl := Option.some.inj became
    obtain ⟨p, was⟩ := release.of_withPending releasing is
    refine ⟨p, ?_⟩
    rw [← s.writeCourt_entry v i, ho]
    exact congrArg some (Reservation.with_stage was).symm

end

/-! ## The request (01 R9) -/

/-- The value is too far from the court time (01 R9). -/
def State.skewed (s : State) (v : Nat) : Prop :=
  ∃ t, s.court = some t ∧ (∃ i, s.entry i ≠ none) ∧ (t + 300 < v ∨ v + 300 < t)

theorem State.anyLive_iff (s : State) : s.anyLive = true ↔ ∃ i, s.entry i ≠ none := by
  have none_ : s.anyLive = false ↔ ∀ i, (s.entry i).isSome = false := by
    rw [State.anyLive, List.any_eq_false]
    constructor
    · intro all i
      have mem : s.entry i ∈ s.entries.cells := List.mem_of_getElem? (s.entries.get_eq i).symm
      simpa using all _ mem
    · intro all e mem
      obtain ⟨k, hk, rfl⟩ := List.mem_iff_getElem.mp mem
      have := all ⟨k, by rw [← s.entries.size]; exact hk⟩
      simpa [State.entry, Bank.get] using this
  rw [← not_iff_not, Bool.not_eq_true, none_]
  simp

section

variable {s : State} {body : List Byte}

theorem State.clockSet_bad (bad : body.length ≠ 4) : s.clockSetRequest body = s.answer 0x45#8 .badField [] := by
  simp only [State.clockSetRequest, numberReq_length bad]

variable (length : body.length = 4)
include length

theorem State.clockSet_skewed (skew : s.skewed (natAt body 0 4)) :
    s.clockSetRequest body = s.answer 0x45#8 .skew s.courtBytes := by
  obtain ⟨t, court, live, far⟩ := skew
  simp only [State.clockSetRequest, numberReq_of_length length, court]
  refine if_pos ?_
  simpa only [Bool.and_eq_true, Bool.or_eq_true, decide_eq_true_eq, s.anyLive_iff] using And.intro live far

theorem State.clockSet_taken (near : ¬s.skewed (natAt body 0 4)) :
    s.clockSetRequest body = (s.setCourt (natAt body 0 4)).answer 0x45#8 .ok (beBytes 4 (natAt body 0 4)) := by
  cases court : s.court with
  | none => simp only [State.clockSetRequest, numberReq_of_length length, court]
  | some t =>
    simp only [State.clockSetRequest, numberReq_of_length length, court]
    refine if_neg fun far => near ⟨t, court, ?_⟩
    simpa only [Bool.and_eq_true, Bool.or_eq_true, decide_eq_true_eq, s.anyLive_iff] using far

end

/-! ## What the first CLOCK-SET writes (06 R121, R126; 10 R184; 11 R204) -/

section

variable {s : State} {v : Nat} (unset : s.court = none) (high : v ≤ 4294967295)
include unset high

theorem State.setCourt_purging (law : s.BindingLaw) {l : LockerId} (purging : (s.locker l).state = .purging none) :
    ((s.setCourt v).locker l).state = if v < 4294967295 then .purging (some v) else .blocked .purgeStall none := by
  obtain ⟨falls, settled, _⟩ := State.setCourt_falls (by rw [unset]; nofun) high law
  have written : ((s.writeCourt v).locker l).state = .purging (some v) := by
    rw [(State.writeCourt_filled unset).1 l]
    simp [fillLocker, purging]
  have became := falls.locker l
  rw [written] at became
  rcases became with same | ⟨_, _, _, no, _⟩ | ⟨t, was, late, blocked⟩ | ⟨_, no, _⟩
  · rw [same, if_pos]
    by_contra last
    exact settled (.stall l) ⟨v, same, by omega⟩
  · cases no
  · cases was
    rw [blocked, if_neg (by omega)]
  · cases no

theorem State.setCourt_resting (law : s.BindingLaw) {l : LockerId} (rests : (s.locker l).state = .purgeRest none) :
    ((s.setCourt v).locker l).state =
      if v < 4294967295 then .purgeRest (some (min 4294967295 (v + 120))) else .purgeWait := by
  obtain ⟨falls, settled, _⟩ := State.setCourt_falls (by rw [unset]; nofun) high law
  have written : ((s.writeCourt v).locker l).state = .purgeRest (some (min 4294967295 (v + 120))) := by
    rw [(State.writeCourt_filled unset).1 l]
    simp only [fillLocker, rests]
    rfl
  have became := falls.locker l
  rw [written] at became
  rcases became with same | ⟨_, _, _, no, _⟩ | ⟨_, no, _⟩ | ⟨t, was, late, waits⟩
  · rw [same, if_pos]
    by_contra last
    exact settled (.rest l) ⟨_, same, by omega⟩
  · cases no
  · cases no
  · obtain rfl : min 4294967295 (v + 120) = t := by simpa using was
    rw [waits, if_neg (by omega)]

theorem State.setCourt_settling {c : Col} (settling : (s.column c).state = .settling none) :
    ((s.setCourt v).column c).state =
      if v < 4294967295 then .settling (some (min 4294967295 (v + 90))) else .active := by
  obtain ⟨falls, settled⟩ := State.setCourt_columns (s := s) (v := v) (by rw [unset]; nofun)
  have written : ((s.writeCourt v).column c).state = .settling (some (min 4294967295 (v + 90))) := by
    rw [(State.writeCourt_filled unset).2 c]
    simp only [fillColumn, settling]
    rfl
  have became := (falls c).state
  rw [written] at became
  rcases became with same | ⟨t, was, late, active⟩
  · rw [same, if_pos]
    by_contra last
    exact settled c ⟨_, same, by omega⟩
  · obtain rfl : min 4294967295 (v + 90) = t := by simpa using was
    rw [active, if_neg (by omega)]

end

theorem State.setCourt_outside (s : State) (v : Nat) : let u := s.setCourt v
    u = { s with court := some v, courtNext := s.now + 1000000, entries := u.entries, lockers := u.lockers
                 columns := u.columns, ops := u.ops, notices := u.notices, gap := u.gap, counters := u.counters
                 choices := u.choices, clockMark := u.clockMark, mode := u.mode, ledLow := u.ledLow } := by
  intro u
  have outside : u = (s.writeCourt v).withRecords u := (s.setCourt_action v).outside
  have mode : u.clockMark = (s.writeCourt v).clockMark ∧ u.mode = (s.writeCourt v).mode
      ∧ u.ledLow = (s.writeCourt v).ledLow := by
    rw [outside]
    exact ⟨rfl, rfl, rfl⟩
  obtain ⟨mark, mode, led⟩ := mode
  rw [mark, mode, led]
  refine outside.trans ?_
  conv_lhs => rw [s.writeCourt_outside v]
  rfl

theorem State.setCourt_mode (s : State) (v : Nat) : (s.setCourt v).clockMark = (s.writeCourt v).clockMark
    ∧ (s.setCourt v).mode = (s.writeCourt v).mode ∧ (s.setCourt v).ledLow = (s.writeCourt v).ledLow := by
  rw [(s.setCourt_action v).outside]
  exact ⟨rfl, rfl, rfl⟩

/-- Settles O32. -/
theorem courtTimeIsSetAndAdvances : Obligations.CourtTimeIsSetAndAdvances := by
  refine ⟨fun s body rest head => ?set, fun s running => ⟨fun unset => ?still, fun t court => ?advance⟩⟩
  case still => rw [exec_courtTimeAdvance running, State.courtAdvance, unset]
  case advance =>
    rw [exec_courtTimeAdvance running, State.courtAdvance, court]
    rfl
  case set =>
    intro v skew
    let s0 : State := { s with inbox := rest }
    have decided {w : State} (h : s0.clockSetRequest body = w) : exec .clockSet s = .next w.transmit :=
      (exec_clockSet head).trans (congrArg (fun w => Host.Outcome.next (State.transmit w)) h)
    refine ⟨fun bad => decided (State.clockSet_bad bad), fun length far => decided (State.clockSet_skewed length far),
      fun length near => ?taken⟩
    let u := s0.setCourt v
    have field {α : Type} (f : State → α) := congrArg f (s0.setCourt_outside v)
    obtain ⟨mark, mode, led⟩ := s0.setCourt_mode v
    have high : v ≤ 4294967295 := natAt_four_le body 0
    refine ⟨u.answer 0x45#8 .ok (beBytes 4 v), decided (State.clockSet_taken length near), s0.setCourt_court v, ?_, ?_, ?_,
      ?_, ?_, ?_, ?_, ?_, ?_, ?_, ?_, ?_, ?_, ?_, fun isSet => ?_, fun unset => ⟨?_, fun other => ?_,
      fun starting walked => ?_, fun law l => ⟨?_, ?_⟩, fun c => ?_⟩⟩
    · exact field State.courtNext
    · exact field State.now
    · exact field fun w => w.replies ++ [_]
    · exact field State.inbox
    · exact field State.classes
    · exact field State.filter
    · exact field State.shift
    · exact field State.exchange
    · exact field State.pollNext
    · exact field State.serverRx
    · exact field State.columnRx
    · exact field State.released
    · exact field State.pending
    · exact field State.walkEnded
    · rw [State.writeCourt_set (s := s0) isSet] at mark mode led
      exact ⟨mode, led, mark⟩
    · refine mark.trans ?_
      by_cases ready : s0.mode = .starting ∧ s0.walkEnded = true
      · rw [State.writeCourt_starts (s := s0) unset ready.1 ready.2]
        simp [State.filled]
      · rw [State.writeCourt_waits (s := s0) unset ready]
        rfl
    · rw [State.writeCourt_waits (s := s0) unset other] at mode led
      exact ⟨mode, led⟩
    · have written := State.writeCourt_starts (s := s0) (v := v) unset starting walked
      refine ⟨mode.trans (by rw [written]; simp), led.trans (by rw [written]; simp), fun room => ?_⟩
      have notices := (s0.setCourt_action v).notices
      rw [written, State.queueNotice_room (s := { s0.filled v with mode := .run, ledLow := true }) _ room] at notices
      exact notices
    · exact State.setCourt_purging (s := s0) unset high law
    · exact State.setCourt_resting (s := s0) unset high law
    · exact State.setCourt_settling (s := s0) unset high

/-- Settles O33. -/
theorem clockSetLeavesNoDeadlineBehind : Obligations.ClockSetLeavesNoDeadlineBehind := by
  intro s body rest head law length moved v skew near
  let s0 : State := { s with inbox := rest }
  let u := s0.setCourt v
  have high : v ≤ maxCourt := natAt_four_le body 0
  obtain ⟨falls, settled, binding⟩ := State.setCourt_falls (s := s0) (v := v) moved high law
  have decided : s0.clockSetRequest body = u.answer 0x45#8 .ok (beBytes 4 v) := State.clockSet_taken length near
  refine ⟨u.answer 0x45#8 .ok (beBytes 4 v), ?_, ?_, fun i r hr stage => ?_, fun l i m holding => ?_,
    fun i r l t p hr => ⟨fun is => ?_, fun is => ?_⟩, fun i r l t q hr => ⟨fun is => ?_, fun is => ?_⟩,
    fun l t purging => ?_, fun l t rests => ?_, fun c t locked => ?_, fun c t settling => ?_⟩
  · exact (exec_clockSet head).trans (congrArg (fun w => Host.Outcome.next (State.transmit w)) decided)
  · exact s0.setCourt_court v
  · refine lt_of_not_ge fun late => settled (.window i) ⟨r, hr, late, ?_⟩
    rcases stage with booked | ⟨l, t, ready⟩
    · rw [booked]; rfl
    · rw [ready]; rfl
  · have holding : (u.locker l).state = .holding i m := holding
    refine lt_of_not_ge fun late => settled (.hold l) ?_
    obtain ⟨r, hr, _⟩ := binding.1 l i (by rw [holding]; rfl)
    obtain ⟨t, ready⟩ := binding.ready_of_holding holding hr
    exact ⟨i, m, r, by rw [holding]; rfl, late, hr, by rw [ready]; rfl⟩
  · exact State.setCourt_keeps (s := s0) moved high law (.inl rfl) hr is
  · exact State.setCourt_keeps (s := s0) moved high law (.inr rfl) hr is
  · exact State.setCourt_kept (s := s0) moved high law (.inl rfl) hr is
  · exact State.setCourt_kept (s := s0) moved high law (.inr rfl) hr is
  · exact lt_of_not_ge fun late => settled (.stall l) ⟨t, purging, late⟩
  · exact lt_of_not_ge fun late => settled (.rest l) ⟨t, rests, late⟩
  · exact lt_of_not_ge fun late => settled (.lockout c) ⟨t, locked, late⟩
  · exact lt_of_not_ge fun late => settled (.settle c) ⟨t, settling, late⟩

end Sys2Proof.Machine
end

section
/-! The lockers of a column, one after another: demands and refusals (05 R102, R104). -/

-- The declarations are elaborated one after another, which bounds the memory that their checks take at one time.
set_option Elab.async false

namespace Sys2Proof.Machine

open Config

theorem State.setLocker_self (s : State) (l : LockerId) : s.setLocker l (s.locker l) = s :=
  congrArg (fun lockers => { s with lockers }) (s.lockers.set_get l)

theorem lockerAt_injective {c : Col} {p q : Pos} : lockerAt c p = lockerAt c q ↔ p = q := by
  refine ⟨fun same => ?_, fun same => same ▸ rfl⟩
  rw [← lockerPos_lockerAt c p, same, lockerPos_lockerAt]

/-- The locker record of each position of column `c` in a list is changed by `f`, one after another. -/
def State.changeLockers (s : State) (c : Col) (f : Pos → Locker → Locker) (ps : List Pos) : State :=
  ps.foldl (fun u p => u.setLocker (lockerAt c p) (f p (u.locker (lockerAt c p)))) s

section

variable (c : Col) (f : Pos → Locker → Locker)

theorem State.changeLockers_outside (s : State) (ps : List Pos) :
    s.changeLockers c f ps = { s with lockers := (s.changeLockers c f ps).lockers } := by
  induction ps generalizing s with
  | nil => rfl
  | cons p ps ih => exact ih (s.setLocker (lockerAt c p) (f p (s.locker (lockerAt c p))))

theorem State.changeLockers_other (s : State) (ps : List Pos) {l : LockerId} (other : lockerCol l ≠ c) :
    (s.changeLockers c f ps).locker l = s.locker l := by
  induction ps generalizing s with
  | nil => rfl
  | cons p ps ih =>
    refine (ih _).trans ?_
    rw [State.locker_setLocker, if_neg]
    rintro rfl
    exact other (lockerCol_lockerAt c p)

theorem State.changeLockers_outOf (s : State) {ps : List Pos} {p : Pos} (outside : p ∉ ps) :
    (s.changeLockers c f ps).locker (lockerAt c p) = s.locker (lockerAt c p) := by
  induction ps generalizing s with
  | nil => rfl
  | cons q ps ih =>
    obtain ⟨ne, rest⟩ := not_or.mp (mt List.mem_cons.mpr outside)
    refine (ih _ rest).trans ?_
    rw [State.locker_setLocker, if_neg (mt lockerAt_injective.mp (Ne.symm ne))]

theorem State.changeLockers_in (s : State) {ps : List Pos} (distinct : ps.Nodup) {p : Pos} (inside : p ∈ ps) :
    (s.changeLockers c f ps).locker (lockerAt c p) = f p (s.locker (lockerAt c p)) := by
  induction ps generalizing s with
  | nil => cases inside
  | cons q ps ih =>
    obtain ⟨fresh, rest⟩ := List.nodup_cons.mp distinct
    rcases List.mem_cons.mp inside with rfl | later
    · refine (State.changeLockers_outOf c f _ fresh).trans ?_
      rw [State.locker_setLocker, if_pos rfl]
    · refine (ih _ rest later).trans ?_
      rw [State.locker_setLocker, if_neg]
      intro same
      rw [lockerAt_injective.mp same] at fresh
      exact fresh later

end

theorem allPos_nodup : allPos.Nodup := List.nodup_finRange 8

theorem mem_allPos (p : Pos) : p ∈ allPos := List.mem_finRange p

/-! ## The demands of a period (05 R102, Table 5-4) -/

/-- A demand asks the states, the readings and the queue alone. -/
theorem State.demandOf_congr {s u : State} (outside : u = { s with lockers := u.lockers }) {l : LockerId}
    (state : (u.locker l).state = (s.locker l).state) (temp : (u.locker l).lastTemp = (s.locker l).lastTemp) :
    u.demandOf l = s.demandOf l := by
  have entry (i : Slot) : u.entry i = s.entry i := by rw [outside]; rfl
  have classOf (r : Reservation) : u.classOf r = s.classOf r := by rw [outside]; rfl
  have started : u.startOutstanding l = s.startOutstanding l := by rw [outside]; rfl
  simp only [State.demandOf, state, temp, entry, classOf, started]

/-- The demand of a position that is not ABSENT is written. -/
def State.demanded (s : State) (c : Col) (p : Pos) (lk : Locker) : Locker :=
  if lk.state = .absent then lk else { lk with demand := s.demandOf (lockerAt c p) }

theorem State.demanded_kept (s : State) (c : Col) (p : Pos) (lk : Locker) :
    (s.demanded c p lk).state = lk.state ∧ (s.demanded c p lk).lastTemp = lk.lastTemp := by
  unfold State.demanded
  split <;> exact ⟨rfl, rfl⟩

theorem State.collectDemands_eq (s : State) (c : Col) :
    s.collectDemands c = s.changeLockers c (s.demanded c) allPos := by
  have fold (ps : List Pos) (u : State) (outside : u = { s with lockers := u.lockers })
      (kept : ∀ l, (u.locker l).state = (s.locker l).state ∧ (u.locker l).lastTemp = (s.locker l).lastTemp) :
      ps.foldl (fun s p =>
        let l := lockerAt c p
        if (s.locker l).state = .absent then s
        else s.setLocker l { s.locker l with demand := s.demandOf l }) u = u.changeLockers c (s.demanded c) ps := by
    induction ps generalizing u with
    | nil => rfl
    | cons p ps ih =>
      have step : (if (u.locker (lockerAt c p)).state = .absent then u
          else u.setLocker (lockerAt c p) { u.locker (lockerAt c p) with demand := u.demandOf (lockerAt c p) })
          = u.setLocker (lockerAt c p) (s.demanded c p (u.locker (lockerAt c p))) := by
        unfold State.demanded
        split
        · rw [State.setLocker_self]
        · rw [State.demandOf_congr outside (kept _).1 (kept _).2]
      refine (congrArg (List.foldl _ · ps) step).trans (ih _ ?_ fun l => ?_)
      · exact congrArg (fun w => State.setLocker w (lockerAt c p) _) outside
      · rw [State.locker_setLocker]
        split
        · next same =>
          obtain ⟨state, temp⟩ := s.demanded_kept c p (u.locker (lockerAt c p))
          rw [state, temp, same]
          exact kept l
        · exact kept l
  exact fold allPos s rfl fun l => ⟨rfl, rfl⟩

/-- The refusals of a position follow its grant (05 R104). -/
def refused (granted : Bank Nat 8) (p : Pos) (lk : Locker) : Locker :=
  { lk with refusals := if lk.demand = 0 ∨ 0 < granted.get p then 0 else min 6 (lk.refusals + 1) }

theorem State.countRefusals_eq (s : State) (c : Col) (granted : Bank Nat 8) :
    s.countRefusals c granted = s.changeLockers c (refused granted) allPos := rfl

end Sys2Proof.Machine
end

section
/-! The units of a heat period (05 R103). -/

-- The declarations are elaborated one after another, which bounds the memory that their checks take at one time.
set_option Elab.async false

namespace Sys2Proof.Machine

open Config

/-! ## Whole demands that fit (05 R103) -/

theorem Share.grant_fits {h : Share} {n : Nat} (p : Pos) (fits : n ≤ h.left) :
    h.grant p n = { h with left := h.left - n, granted := h.granted.set p n } := if_pos fits

theorem Share.grant_short {h : Share} {n : Nat} (p : Pos) (short : ¬n ≤ h.left) : h.grant p n = h := if_neg short

theorem Bank.get_set_update (b : Bank Nat 8) (p : Pos) (n : Nat) :
    (b.set p n).get = Function.update b.get p n := by
  funext q
  rw [Bank.get_set, Function.update_apply]
  exact if_congr eq_comm rfl rfl

/-- Units left and units granted, the units of each position as a function. -/
def Share.units (h : Share) : Nat × (Pos → Nat) := (h.left, h.granted.get)

/-- Whole demands that fit are granted, position by position, to the positions that meet a condition. -/
def Share.grantEach (cond : Pos → Bool) (n : Pos → Nat) (ps : List Pos) (h : Share) : Share :=
  ps.foldl (fun h p => if cond p then h.grant p (n p) else h) h

theorem Share.grantEach_units (cond : Pos → Bool) (n : Pos → Nat) (ps : List Pos) (h : Share) :
    ps.foldl (fun x p => if cond p = true ∧ n p ≤ x.1 then (x.1 - n p, Function.update x.2 p (n p)) else x) h.units
      = (h.grantEach cond n ps).units := by
  refine List.foldl_hom Share.units (fun h p => ?_)
  by_cases asks : cond p = true
  · by_cases fits : n p ≤ h.left
    · rw [if_pos asks, Share.grant_fits p fits]
      refine (if_pos ⟨asks, fits⟩).trans ?_
      exact congrArg (Prod.mk _) (Bank.get_set_update h.granted p (n p)).symm
    · rw [if_pos asks, Share.grant_short p fits]
      exact if_neg fun both => fits both.2
  · rw [if_neg asks]
    exact if_neg fun both => asks both.1

theorem Share.grantEach_last (cond : Pos → Bool) (n : Pos → Nat) (ps : List Pos) (h : Share) :
    (h.grantEach cond n ps).last = h.last := by
  refine foldl_fixes Share.last (fun h p => ?_) h ps
  unfold Share.grant
  split
  · split <;> rfl
  · rfl

/-- The round robin (05 R103): who has no grant yet takes its demand if it fits, and the pointer follows. -/
def Share.grantRound (cond : Pos → Bool) (n : Pos → Nat) (ps : List Pos) (h : Share) : Share :=
  ps.foldl (fun h p =>
    if cond p && h.granted.get p == 0 && decide (n p ≤ h.left) then { h.grant p (n p) with last := some p } else h) h

theorem Share.grantRound_units (cond : Pos → Bool) (n : Pos → Nat) (ps : List Pos) (h : Share) :
    ps.foldl (fun (x : Nat × (Pos → Nat) × Option Pos) p =>
        if cond p = true ∧ x.2.1 p = 0 ∧ n p ≤ x.1 then (x.1 - n p, Function.update x.2.1 p (n p), some p) else x)
        (h.left, h.granted.get, h.last)
      = let e := h.grantRound cond n ps
        (e.left, e.granted.get, e.last) := by
  refine List.foldl_hom (fun h : Share => (h.left, h.granted.get, h.last)) (fun h p => ?_)
  have asks : (cond p && h.granted.get p == 0 && decide (n p ≤ h.left)) = true
      ↔ cond p = true ∧ h.granted.get p = 0 ∧ n p ≤ h.left := by
    simp [and_assoc]
  by_cases gets : cond p = true ∧ h.granted.get p = 0 ∧ n p ≤ h.left
  · rw [if_pos (asks.mpr gets), Share.grant_fits p gets.2.2]
    refine (if_pos gets).trans ?_
    exact congrArg (fun g => (h.left - n p, g, some p)) (Bank.get_set_update h.granted p (n p)).symm
  · rw [if_neg (mt asks.mp gets)]
    exact if_neg gets

/-- The order of the round robin: from the position after the pointer to the pointer itself. -/
theorem circleFrom_eq : ∀ pointer : Pos,
    circleFrom pointer = ([1, 2, 3, 4, 5, 6, 7, 8] : List Nat).map fun k => pointer + Fin.ofNat 8 k := by
  decide

/-! ## Purge starts (05 R103, R106) -/

theorem Op.isPurge_iff (op : Op) (kind : Byte) (l : LockerId) : op.isPurge kind l = true ↔
    op.kind = kind ∧ op.origin = .purge ∧ op.dest = .column (lockerCol l) ∧ op.position = some (lockerPos l) := by
  simp [Op.isPurge, and_assoc]

theorem State.startOutstanding_iff (s : State) (l : LockerId) : s.startOutstanding l = true ↔
    ∃ op ∈ s.ops, op.kind = 0x06#8 ∧ op.origin = .purge ∧ op.dest = .column (lockerCol l)
      ∧ op.position = some (lockerPos l) := by
  simp [State.startOutstanding, Op.isPurge_iff]

/-- The PURGE-STARTs of the positions of column `c` are queued, in their order. -/
def State.startAll (s : State) (c : Col) (starts : List Pos) : State :=
  starts.foldl (fun u p => u.enqueue (purgeOp 0x06#8 (lockerAt c p))) s

theorem State.startAll_concat (s : State) (c : Col) (starts : List Pos) (p : Pos) :
    s.startAll c (starts ++ [p]) = (s.startAll c starts).enqueue (purgeOp 0x06#8 (lockerAt c p)) := by
  rw [State.startAll, List.foldl_append]
  rfl

theorem State.enqueue_outside (s : State) (op : Op) : s.enqueue op = { s with ops := (s.enqueue op).ops } := by
  unfold State.enqueue
  split <;> rfl

theorem State.startAll_outside (s : State) (c : Col) (starts : List Pos) :
    s.startAll c starts = { s with ops := (s.startAll c starts).ops } := by
  induction starts generalizing s with
  | nil => rfl
  | cons p starts ih =>
    exact (ih (s.enqueue (purgeOp 0x06#8 (lockerAt c p)))).trans
      (congrArg (fun w : State => { w with ops := (s.startAll c (p :: starts)).ops }) (s.enqueue_outside _))

theorem State.freeEntries_enqueue {s : State} (room : 0 < s.freeEntries) (op : Op) :
    (s.enqueue op).freeEntries = s.freeEntries - 1 := by
  have tag : s.lowestTag ≠ 0 := Nat.one_le_iff_ne_zero.mp (State.lowestTag_spec (State.exists_free_tag room)).1
  rw [State.enqueue_room room, State.freeEntries, State.freeEntries]
  simp only [List.countP_append, List.countP_singleton, bne_iff_ne, ne_eq, tag, not_false_eq_true, if_true]
  rw [Nat.sub_right_comm, Nat.sub_right_comm _ s.reserve]
  omega

theorem State.startAll_freeEntries {s : State} (c : Col) {starts : List Pos} (fits : starts.length ≤ s.freeEntries) :
    (s.startAll c starts).freeEntries = s.freeEntries - starts.length := by
  induction starts generalizing s with
  | nil => rfl
  | cons p starts ih =>
    have room : 0 < s.freeEntries := Nat.lt_of_lt_of_le (Nat.succ_pos _) fits
    have after := State.freeEntries_enqueue room (purgeOp 0x06#8 (lockerAt c p))
    rw [List.length_cons] at fits ⊢
    refine (ih (by rw [after]; omega)).trans ?_
    rw [after]
    omega

/-- A PURGE-START that is queued is outstanding for its own locker alone. -/
theorem State.startOutstanding_enqueue (s : State) {l k : LockerId} (other : l ≠ k) :
    (s.enqueue (purgeOp 0x06#8 l)).startOutstanding k = s.startOutstanding k := by
  unfold State.enqueue
  split
  · have apart : Op.isPurge { purgeOp 0x06#8 l with tag := s.lowestTag, notBefore := s.now, inFlight := false }
        0x06#8 k = false := by
      rw [← Bool.not_eq_true, Op.isPurge_iff]
      rintro ⟨_, _, column, position⟩
      have sameCol : lockerCol l = lockerCol k := by simpa [purgeOp, Op.blank] using column
      have samePos : lockerPos l = lockerPos k := by simpa [purgeOp, Op.blank] using position
      exact other (by rw [← lockerAt_of_locker l, sameCol, samePos, lockerAt_of_locker])
    show (s.ops ++ [_]).any _ = _
    rw [List.any_append, List.any_cons, apart]
    simp [State.startOutstanding]
  · rfl

theorem State.startAll_startOutstanding (s : State) (c : Col) {starts : List Pos} {p : Pos} (outside : p ∉ starts) :
    (s.startAll c starts).startOutstanding (lockerAt c p) = s.startOutstanding (lockerAt c p) := by
  induction starts generalizing s with
  | nil => rfl
  | cons q starts ih =>
    obtain ⟨ne, rest⟩ := not_or.mp (mt List.mem_cons.mpr outside)
    refine (ih _ rest).trans (s.startOutstanding_enqueue ?_)
    exact mt lockerAt_injective.mp (Ne.symm ne)

/-- Step 4 for one position, the PURGE-STARTs queued so far listed. -/
def startStep (awaits : Pos → Bool) (free : Nat) (x : Nat × (Pos → Nat) × List Pos) (p : Pos) :
    Nat × (Pos → Nat) × List Pos :=
  if awaits p = true ∧ 3 ≤ x.1 ∧ x.2.2.length < free then (x.1 - 3, Function.update x.2.1 p 3, x.2.2 ++ [p]) else x

theorem State.grantStart_yes {u : State} {c : Col} {h : Share} {p : Pos}
    (waits : (u.locker (lockerAt c p)).state = .purgeWait) (idle : u.startOutstanding (lockerAt c p) = false)
    (left : 3 ≤ h.left) (room : 0 < u.freeEntries) :
    u.grantStart c h p = (u.enqueue (purgeOp 0x06#8 (lockerAt c p)),
      { h with left := h.left - 3, granted := h.granted.set p 3 }) := by
  rw [State.grantStart, Share.grant_fits p left]
  exact if_pos (by simp [waits, idle, left, State.hasRoom, room])

theorem State.grantStart_no {u : State} {c : Col} {h : Share} {p : Pos}
    (no : ¬((u.locker (lockerAt c p)).state = .purgeWait ∧ u.startOutstanding (lockerAt c p) = false
      ∧ 3 ≤ h.left ∧ 0 < u.freeEntries)) :
    u.grantStart c h p = (u, h) := by
  refine if_neg fun yes => no ?_
  simpa [State.hasRoom, and_assoc] using yes

/-- Step 4, position by position, with the PURGE-STARTs queued before. -/
theorem State.grantStarts_fold (s : State) (c : Col) (awaits : Pos → Bool)
    (asks : ∀ p, awaits p = true
      ↔ (s.locker (lockerAt c p)).state = .purgeWait ∧ s.startOutstanding (lockerAt c p) = false)
    {ps : List Pos} (distinct : ps.Nodup) {starts : List Pos} (fresh : ∀ p ∈ ps, p ∉ starts)
    (fits : starts.length ≤ s.freeEntries) (h : Share) :
    ∃ e : Share, ∃ all : List Pos,
      ps.foldl (startStep awaits s.freeEntries) (h.left, h.granted.get, starts) = (e.left, e.granted.get, all)
        ∧ ps.foldl (fun x p => x.1.grantStart c x.2 p) (s.startAll c starts, h) = (s.startAll c all, e)
        ∧ e.last = h.last ∧ all.length ≤ s.freeEntries := by
  induction ps generalizing starts h with
  | nil => exact ⟨h, starts, rfl, rfl, rfl, fits⟩
  | cons p ps ih =>
    obtain ⟨alone, rest⟩ := List.nodup_cons.mp distinct
    obtain ⟨first, later⟩ := List.forall_mem_cons.mp fresh
    have outside := s.startAll_outside c starts
    have locker : (s.startAll c starts).locker (lockerAt c p) = s.locker (lockerAt c p) := by rw [outside]; rfl
    have outstanding := s.startAll_startOutstanding c first
    have free := State.startAll_freeEntries c fits
    simp only [List.foldl_cons]
    by_cases gets : awaits p = true ∧ 3 ≤ h.left ∧ starts.length < s.freeEntries
    · obtain ⟨waits, idle⟩ := (asks p).mp gets.1
      have stepped := State.grantStart_yes (u := s.startAll c starts) (c := c) (h := h) (p := p) (by rw [locker, waits])
        (by rw [outstanding, idle]) gets.2.1 (by rw [free]; omega)
      have spec : startStep awaits s.freeEntries (h.left, h.granted.get, starts) p
          = (h.left - 3, (h.granted.set p 3).get, starts ++ [p]) := by
        rw [Bank.get_set_update]
        exact if_pos gets
      rw [spec, stepped, ← State.startAll_concat]
      refine ih rest (fun q hq mem => ?_) (by rw [List.length_append, List.length_singleton]; omega)
        { h with left := h.left - 3, granted := h.granted.set p 3 }
      rcases List.mem_append.mp mem with earlier | here
      · exact later q hq earlier
      · rw [List.mem_singleton.mp here] at hq
        exact alone hq
    · have stepped := State.grantStart_no (u := s.startAll c starts) (c := c) (h := h) (p := p) (by
        rw [locker, outstanding, free]
        rintro ⟨waits, idle, left, room⟩
        exact gets ⟨(asks p).mpr ⟨waits, idle⟩, left, by omega⟩)
      have spec : startStep awaits s.freeEntries (h.left, h.granted.get, starts) p = (h.left, h.granted.get, starts) :=
        if_neg gets
      rw [spec, stepped]
      exact ih rest later fits h

end Sys2Proof.Machine
end

section
/-! The heat period (05 R101 to R106). -/

-- The declarations are elaborated one after another, which bounds the memory that their checks take at one time.
set_option Elab.async false

namespace Sys2Proof.Machine

open Config

/-! ## The four steps by their conditions (05 R103) -/

section

variable {s : State} {c : Col}

theorem State.grantPurges_eq {purges : Pos → Bool} (same : ∀ p, purges p =
      ((s.locker (lockerAt c p)).state.isPurging
        || ((s.locker (lockerAt c p)).state == .purgeWait && s.startOutstanding (lockerAt c p)))) (h : Share) :
    s.grantPurges c h = h.grantEach purges (fun _ => 3) allPos := by
  rw [show purges = _ from funext same]
  rfl

theorem State.grantStarved_eq {starved : Pos → Bool} {want : Pos → Nat}
    (same : ∀ p, starved p = (s.mealDemand (lockerAt c p) && (s.locker (lockerAt c p)).refusals == 6))
    (demand : ∀ p, (s.locker (lockerAt c p)).demand = want p) (h : Share) :
    s.grantStarved c h = h.grantEach starved want allPos := by
  rw [show starved = _ from funext same, ← show _ = want from funext demand]
  rfl

theorem State.grantRound_eq {warms : Pos → Bool} {want : Pos → Nat}
    (same : ∀ p, s.mealDemand (lockerAt c p) = warms p)
    (demand : ∀ p, (s.locker (lockerAt c p)).demand = want p) (h : Share) :
    s.grantRound c h = h.grantRound warms want (circleFrom (s.column c).pointer) := by
  rw [← show _ = warms from funext same, ← show _ = want from funext demand]
  rfl

theorem State.grantStarts_eq (awaits : Pos → Bool)
    (asks : ∀ p, awaits p = true ↔ ((s.locker (lockerAt c p)).state = .purgeWait
      ∧ s.startOutstanding (lockerAt c p) = false) ∧ s.workable c = true) (h : Share) :
    ∃ e : Share, ∃ all : List Pos,
      allPos.foldl (startStep awaits s.freeEntries) (h.left, h.granted.get, []) = (e.left, e.granted.get, all)
        ∧ s.grantStarts c h = (s.startAll c all, e) ∧ e.last = h.last := by
  unfold State.grantStarts
  by_cases works : s.workable c = true
  · obtain ⟨e, all, spec, model, last, _⟩ := s.grantStarts_fold c awaits
      (fun p => (asks p).trans (and_iff_left works)) allPos_nodup (starts := []) (fun _ _ => List.not_mem_nil)
      (Nat.zero_le _) h
    exact ⟨e, all, spec, by rw [if_pos works]; exact model, last⟩
  · have never (p : Pos) : ¬awaits p = true := fun yes => works ((asks p).mp yes).2
    refine ⟨h, [], ?_, if_neg works, rfl⟩
    have still (x : Nat × (Pos → Nat) × List Pos) (p : Pos) : startStep awaits s.freeEntries x p = x :=
      if_neg fun yes => never p yes.1
    exact foldl_fixes id still _ allPos

end

/-! ## The queue after the purge starts -/

/-- What an operation adds to the queue asks the queue, the held entries and the time alone. -/
theorem State.enqueue_ops_congr {s u : State} (ops : u.ops = s.ops) (reserve : u.reserve = s.reserve)
    (now : u.now = s.now) (op : Op) : (u.enqueue op).ops = (s.enqueue op).ops := by
  have free : u.freeEntries = s.freeEntries := by simp only [State.freeEntries, ops, reserve]
  have room : u.hasRoom = s.hasRoom := by rw [State.hasRoom, free, State.hasRoom]
  have tag : u.lowestTag = s.lowestTag := by simp only [State.lowestTag, ops]
  unfold State.enqueue
  rw [room, tag, now, ops]
  split
  · rfl
  · exact ops

theorem State.startAll_ops_congr {s u : State} (ops : u.ops = s.ops) (reserve : u.reserve = s.reserve)
    (now : u.now = s.now) (c : Col) (starts : List Pos) : (u.startAll c starts).ops = (s.startAll c starts).ops := by
  induction starts generalizing s u with
  | nil => exact ops
  | cons p starts ih =>
    have field {α : Type} (f : State → α) (fixed : ∀ (w : State) (ops : List Op), f { w with ops } = f w)
        (same : f u = f s) (op : Op) : f (u.enqueue op) = f (s.enqueue op) := calc
      f (u.enqueue op) = f u := (congrArg f (u.enqueue_outside op)).trans (fixed u _)
      _ = f s := same
      _ = f (s.enqueue op) := ((congrArg f (s.enqueue_outside op)).trans (fixed s _)).symm
    exact ih (State.enqueue_ops_congr ops reserve now _) (field State.reserve (fun _ _ => rfl) reserve _)
      (field State.now (fun _ _ => rfl) now _)

/-- A PURGE-START is no HEAT-SET. -/
theorem State.enqueue_purge_heat (s : State) (c : Col) (l : LockerId) :
    ((s.enqueue (purgeOp 0x06#8 l)).ops.any fun op => op.isWaitingHeat c) = s.ops.any fun op => op.isWaitingHeat c := by
  unfold State.enqueue
  split
  · show (s.ops ++ [_]).any _ = _
    rw [List.any_append]
    simp [Op.isWaitingHeat, purgeOp, Op.blank]
  · rfl

theorem State.startAll_heat (s : State) (c : Col) (starts : List Pos) :
    ((s.startAll c starts).ops.any fun op => op.isWaitingHeat c) = s.ops.any fun op => op.isWaitingHeat c := by
  induction starts generalizing s with
  | nil => rfl
  | cons p starts ih =>
    exact (ih _).trans (s.enqueue_purge_heat c _)

/-! ## The period begins (05 R101, R102) -/

/-- The timer of column `c`, expired at `t`, is set on, and the pending budget is taken into use. -/
def State.periodBegun (s : State) (c : Col) (t : Time) : State :=
  { s with
    now := max s.now t
    columns := s.columns.set c
      { s.column c with
        heatNext := some (t + 10000000), budget := (s.column c).pendingBudget.getD (s.column c).budget
        pendingBudget := none } }

theorem State.heatExpiry_eq {s : State} {c : Col} {t : Time} (timer : (s.column c).heatNext = some t) {u : State}
    {h : Share} (shared : ((s.periodBegun c t).collectDemands c).grantUnits c = (u, h)) :
    s.heatExpiry c = ((u.recordGrants c h).countRefusals c h.granted).sendHeat c h.granted := by
  have begun : State.takeBudget ((s.reach t).setColumn c { (s.reach t).column c with heatNext := some (t + heatPeriod) }) c
      = s.periodBegun c t := by
    simp [State.takeBudget, State.setColumn, State.column, State.periodBegun, State.reach]
    rfl
  simp only [State.heatExpiry, timer, begun, shared]

/-- The demand that the period writes for the locker at a position (05 R102). -/
def State.wants (s : State) (c : Col) (p : Pos) : Nat :=
  if (s.locker (lockerAt c p)).state = .absent then (s.locker (lockerAt c p)).demand else s.demandOf (lockerAt c p)

theorem Bank.cells_eq (b : Bank Nat 8) : b.cells = allPos.map b.get := by
  refine List.ext_getElem ?_ fun k hk _ => ?_
  · simp [b.size, allPos]
  · simp [allPos, Bank.get]

/-- `d` is the state `s` in which the period of column `c` has begun at `t`, its demands collected. -/
structure State.Collected (s : State) (c : Col) (t : Time) (d : State) : Prop where
  outside : d = { s.periodBegun c t with lockers := d.lockers }
  locker (p : Pos) : d.locker (lockerAt c p) = { s.locker (lockerAt c p) with demand := s.wants c p }
  other {l : LockerId} (other : lockerCol l ≠ c) : d.locker l = s.locker l

theorem State.collectDemands_collected (s : State) (c : Col) (t : Time) :
    s.Collected c t ((s.periodBegun c t).collectDemands c) := by
  rw [State.collectDemands_eq]
  refine ⟨State.changeLockers_outside c _ _ _, fun p => ?_, fun other => State.changeLockers_other c _ _ _ other⟩
  rw [State.changeLockers_in c _ _ allPos_nodup (mem_allPos p)]
  unfold State.demanded State.wants
  show (if (s.locker (lockerAt c p)).state = .absent then s.locker (lockerAt c p)
    else { s.locker (lockerAt c p) with demand := s.demandOf (lockerAt c p) }) = _
  split <;> rfl

section

variable {s d : State} {c : Col} {t : Time} (collected : s.Collected c t d)
include collected

theorem State.Collected.column :
    d.column c =
      { s.column c with
        heatNext := some (t + 10000000), budget := (s.column c).pendingBudget.getD (s.column c).budget
        pendingBudget := none } := by
  rw [collected.outside]
  exact Bank.get_set_self _ _ _

theorem State.Collected.startOutstanding (l : LockerId) : d.startOutstanding l = s.startOutstanding l := by
  rw [collected.outside]
  rfl

theorem State.Collected.freeEntries : d.freeEntries = s.freeEntries := by
  rw [collected.outside]
  rfl

theorem State.Collected.workable : d.workable c = s.workable c := by
  rw [State.workable, State.reachable, collected.column]
  rfl

end

/-! ## The units of the period (05 R103) -/

/-- The first three steps, from the budget. -/
def Share.threeSteps (budget : Nat) (purges starved warms : Pos → Bool) (want : Pos → Nat) (pointer : Pos) : Share :=
  ((Share.grantEach purges (fun _ => 3) allPos ⟨budget, .fill 8 0, none⟩).grantEach starved want allPos).grantRound
    warms want (circleFrom pointer)

section

variable {s d : State} {c : Col} {t : Time} (collected : s.Collected c t d) {purges warms awaits : Pos → Bool}
  (purging : ∀ p, purges p = ((s.locker (lockerAt c p)).state.isPurging
    || ((s.locker (lockerAt c p)).state == .purgeWait && s.startOutstanding (lockerAt c p))))
  (meal : ∀ p, d.mealDemand (lockerAt c p) = warms p)
include collected

theorem State.Collected.within {u : State} {e : Share} (shared : d.grantUnits c = (u, e)) :
    (allPos.map e.granted.get).sum ≤ (s.column c).pendingBudget.getD (s.column c).budget := by
  have within := (d.grantUnits_within c).1
  rw [shared, collected.column, Bank.cells_eq] at within
  exact (Nat.le_add_right _ _).trans within

include purging meal

theorem State.Collected.round :
    d.grantRound c (d.grantStarved c (d.grantPurges c ⟨(d.column c).budget, .fill 8 0, none⟩)) =
      Share.threeSteps ((s.column c).pendingBudget.getD (s.column c).budget) purges
        (fun p => warms p && (s.locker (lockerAt c p)).refusals == 6) warms (s.wants c) (s.column c).pointer := by
  have demand (p : Pos) : (d.locker (lockerAt c p)).demand = s.wants c p := by rw [collected.locker p]
  rw [State.grantPurges_eq (purges := purges) (fun p => by rw [collected.locker, collected.startOutstanding, purging]),
    State.grantStarved_eq (starved := fun p => warms p && (s.locker (lockerAt c p)).refusals == 6)
      (fun p => by rw [meal p, collected.locker]) demand,
    State.grantRound_eq meal demand, collected.column]
  rfl

theorem State.Collected.units (asks : ∀ p, awaits p = true ↔ ((s.locker (lockerAt c p)).state = .purgeWait
      ∧ s.startOutstanding (lockerAt c p) = false) ∧ s.workable c = true) :
    let e3 := Share.threeSteps ((s.column c).pendingBudget.getD (s.column c).budget) purges
        (fun p => warms p && (s.locker (lockerAt c p)).refusals == 6) warms (s.wants c) (s.column c).pointer
    ∃ e : Share, ∃ starts : List Pos,
      allPos.foldl (startStep awaits s.freeEntries) (e3.left, e3.granted.get, []) = (e.left, e.granted.get, starts)
        ∧ d.grantUnits c = (d.startAll c starts, e) ∧ e.last = e3.last := by
  intro e3
  obtain ⟨e, starts, spec, model, last⟩ := State.grantStarts_eq (s := d) (c := c) awaits
    (fun p => by rw [collected.locker, collected.startOutstanding, collected.workable]; exact asks p) e3
  rw [collected.freeEntries] at spec
  refine ⟨e, starts, spec, ?_, last⟩
  exact (congrArg (d.grantStarts c) (collected.round purging meal)).trans model

end

/-! ## What the period writes (05 R102 to R104) -/

/-- The column's record after a period begun at `t` and shared out as `e`. -/
def Column.shared (col : Column) (t : Time) (e : Share) : Column :=
  { col with
    budget := col.pendingBudget.getD col.budget, pendingBudget := none, heatNext := some (t + 10000000)
    granted := e.granted, pointer := e.last.getD col.pointer }

/-- The state in which the HEAT-SET of a period is sent, its demands collected in `d`. -/
def State.periodShared (d : State) (c : Col) (starts : List Pos) (e : Share) : State :=
  ((d.startAll c starts).recordGrants c e).countRefusals c e.granted

section

variable {s d : State} {c : Col} {t : Time} (collected : s.Collected c t d) (starts : List Pos) (e : Share)
include collected

theorem State.Collected.recorded :
    (d.startAll c starts).recordGrants c e =
      { s with
        now := max s.now t, columns := s.columns.set c ((s.column c).shared t e), lockers := d.lockers
        ops := (State.startAll { s with now := max s.now t } c starts).ops } := by
  have ops : (d.startAll c starts).ops = (State.startAll { s with now := max s.now t } c starts).ops := by
    have queue : d.ops = s.ops := (congrArg State.ops collected.outside :)
    have held : d.reserve = s.reserve := (congrArg State.reserve collected.outside :)
    have now : d.now = max s.now t := (congrArg State.now collected.outside :)
    exact State.startAll_ops_congr (s := { s with now := max s.now t }) queue held now c starts
  have here : (d.startAll c starts).column c = d.column c := by
    rw [State.startAll_outside]
    rfl
  rw [State.recordGrants, here, collected.column, State.startAll_outside, ops, collected.outside]
  simp only [State.setColumn, State.periodBegun, Bank.set_set]
  rfl

theorem State.Collected.shared_eq :
    d.periodShared c starts e =
      { s with
        now := max s.now t, columns := s.columns.set c ((s.column c).shared t e)
        lockers := (d.periodShared c starts e).lockers
        ops := (State.startAll { s with now := max s.now t } c starts).ops } := by
  have counted := State.changeLockers_outside c (refused e.granted) ((d.startAll c starts).recordGrants c e) allPos
  exact counted.trans (congrArg (fun w : State => { w with lockers := (d.periodShared c starts e).lockers })
    (collected.recorded starts e))

theorem State.Collected.shared_column : (d.periodShared c starts e).column c = (s.column c).shared t e := by
  rw [collected.shared_eq starts e]
  exact Bank.get_set_self _ _ _

theorem State.Collected.shared_locker (p : Pos) : (d.periodShared c starts e).locker (lockerAt c p) =
    refused e.granted p { s.locker (lockerAt c p) with demand := s.wants c p } := by
  rw [State.periodShared, State.countRefusals_eq, State.changeLockers_in c _ _ allPos_nodup (mem_allPos p),
    ← collected.locker p, collected.recorded starts e]
  rfl

theorem State.Collected.shared_other {l : LockerId} (other : lockerCol l ≠ c) :
    (d.periodShared c starts e).locker l = s.locker l := by
  rw [State.periodShared, State.countRefusals_eq, State.changeLockers_other c _ _ _ other, ← collected.other other,
    collected.recorded starts e]
  rfl

theorem State.Collected.shared_heat : ((d.periodShared c starts e).ops.any fun op => op.isWaitingHeat c)
    = s.ops.any fun op => op.isWaitingHeat c := by
  rw [collected.shared_eq starts e]
  exact State.startAll_heat { s with now := max s.now t } c starts

theorem State.Collected.shared_reachable : (d.periodShared c starts e).reachable c = s.reachable c := by
  rw [State.reachable, collected.shared_column starts e]
  rfl

end

/-! ## The HEAT-SET (05 R105, R113) -/

theorem State.sendHeat_eq {v : State} {c : Col} {granted : Bank Nat 8} {waits : Op → Bool} {duties : List Byte}
    (same : ∀ op : Op, op.isWaitingHeat c = waits op) (body : granted.cells.flatMap u8 = duties) :
    v.sendHeat c granted =
      if v.reachable c = true then
        if v.ops.any waits then
          State.blindPeriod
            { v with ops := v.ops.map fun op => if waits op then { op with body := duties } else op } c
        else if v.freeEntries = 0 then v.blindPeriod c
        else
          v.enqueue
            { tag := 0, dest := .column c, kind := 0x05#8, position := none, side := none, mode := .once
              cls := .routine, origin := .heat, slot := none, inboxRef := none, body := duties
              notBefore := 0, inFlight := false }
      else v.blindPeriod c := by
  subst body
  have room : (if v.hasRoom then v.enqueue (heatOp c granted) else v.blindPeriod c)
      = if v.freeEntries = 0 then v.blindPeriod c else v.enqueue (heatOp c granted) := by
    by_cases full : v.freeEntries = 0
    · rw [if_pos full, if_neg]
      rw [State.hasRoom_eq_false.mpr full]
      nofun
    · rw [if_neg full, if_pos (v.hasRoom_iff.mpr full)]
  simp only [State.sendHeat, same, room]
  rfl

/-! ## The obligation -/

section

variable (s : State) (l : LockerId)

theorem State.demandOf_holding {i : Slot} {m : Meal} {r : Reservation} {k : FoodClass}
    (holding : (s.locker l).state = .holding i m) (hr : s.entry i = some r) (class_ : s.classes.get r.cls = some k) :
    s.demandOf l =
      match (s.locker l).lastTemp with
      | none => k.units
      | some t => if t < k.target then k.units else 0 := by
  simp only [State.demandOf, holding, hr, State.classOf, class_, Option.getD_some] <;> rfl

theorem State.demandOf_loading {i : Slot} {ph : Phase} {d : Door} {r : Reservation} {k : FoodClass}
    (loading : (s.locker l).state = .loading i ph d) (hr : s.entry i = some r)
    (class_ : s.classes.get r.cls = some k) : s.demandOf l = k.units := by
  simp only [State.demandOf, loading, hr, State.classOf, class_, Option.getD_some]

theorem State.demandOf_other (holding : ∀ i m, (s.locker l).state ≠ .holding i m)
    (loading : ∀ i ph d, (s.locker l).state ≠ .loading i ph d) (purging : ∀ u, (s.locker l).state ≠ .purging u)
    (waiting : (s.locker l).state ≠ .purgeWait) : s.demandOf l = 0 := by
  cases state : (s.locker l).state with
  | holding i m => exact absurd state (holding i m)
  | loading i ph d => exact absurd state (loading i ph d)
  | purging u => exact absurd state (purging u)
  | purgeWait => exact absurd state waiting
  | _ => simp only [State.demandOf, state]

end

/-- Settles O45: the four steps of the model are folds over the same positions as those of the statement, each
starting where the step before it ended, on the state whose demands have been collected. -/
theorem heatPeriodSharesTheBudget : Obligations.HeatPeriodSharesTheBudget := by
  refine ⟨fun c p => ⟨rfl, lockerCol_lockerAt c p, lockerPos_lockerAt c p⟩, State.startOutstanding_iff, fun s c => ?works,
    fun s c => ?reaches, fun l => rfl, fun s c running stopped => ?stopped, fun s c t running timer => ?period,
    fun s l => ?demands⟩
  case works => simp [State.workable]
  case reaches =>
    rw [State.reachable]
    cases (s.column c).state <;> simp [ColState.reachable]
  case stopped => rw [exec_heatPeriodExpiry running, State.heatExpiry, stopped]
  case demands =>
    refine ⟨fun i m r k holding hr class_ => s.demandOf_holding l holding hr class_,
      fun i ph d r k loading hr class_ => s.demandOf_loading l loading hr class_, fun u purging => ?_, fun waiting => ?_,
      s.demandOf_other l⟩
    · simp only [State.demandOf, show (s.locker l).state = _ from purging]
    · simp only [State.demandOf, show (s.locker l).state = _ from waiting]
  case period =>
    intro col lk budget want started purges warms awaits
    have purging (p : Pos) : purges p = ((lk p).state.isPurging || ((lk p).state == .purgeWait && started p)) := by
      simp only [purges]
      cases (lk p).state <;> simp [LockerState.isPurging]
    obtain ⟨d, d_eq, collected⟩ : ∃ d, (s.periodBegun c t).collectDemands c = d ∧ s.Collected c t d :=
      ⟨_, rfl, s.collectDemands_collected c t⟩
    have meal (p : Pos) : d.mealDemand (lockerAt c p) = warms p := by
      simp only [State.mealDemand, collected.locker p]
      rfl
    have asks (p : Pos) : awaits p = true ↔ ((lk p).state = .purgeWait ∧ started p = false) ∧ s.workable c = true := by
      simp [awaits]
    obtain ⟨e4, starts, spec, shared, last⟩ := collected.units purging meal asks
    let begun : Share := ⟨budget, .fill 8 0, none⟩
    let starved (p : Pos) : Bool := warms p && (lk p).refusals == 6
    let e1 := begun.grantEach purges (fun _ => 3) allPos
    let e2 := e1.grantEach starved want allPos
    let e3 := e2.grantRound warms want (circleFrom col.pointer)
    let v := d.periodShared c starts e4
    have written : v.column c = col.shared t e4 := collected.shared_column starts e4
    refine ⟨e1.granted.get, e2.granted.get, e3.granted.get, e4.granted.get, e1.left, e2.left, e3.left, e4.left, e3.last,
      starts, v, ?purge, ?starve, ?round, ?start, ?sum, ?writes, fun p => by rw [written]; rfl,
      collected.shared_locker starts e4, fun l => collected.shared_other starts e4, ?sends⟩
    case purge =>
      rw [← allPos_eq]
      have none_ : begun.units = (budget, fun _ => 0) :=
        congrArg (Prod.mk budget) (funext fun p => Bank.get_fill 0 p)
      exact none_ ▸ Share.grantEach_units purges (fun _ => 3) allPos begun
    case starve =>
      rw [← allPos_eq]
      refine Eq.trans ?_ (Share.grantEach_units starved want allPos e1)
      refine congrArg (fun f => List.foldl f e1.units allPos) (funext fun x => funext fun p => if_congr ?_ rfl rfl)
      simp [starved, and_assoc]
    case round =>
      have none_ : e2.last = none := (Share.grantEach_last _ _ _ _).trans (Share.grantEach_last _ _ _ _)
      have fold := Share.grantRound_units warms want (circleFrom col.pointer) e2
      rw [none_] at fold
      rw [← circleFrom_eq]
      exact fold
    case start =>
      rw [← allPos_eq]
      exact spec
    case sum =>
      rw [← allPos_eq]
      exact collected.within shared
    case writes =>
      rw [written]
      refine (collected.shared_eq starts e4).trans ?_
      rw [Column.shared, last]
      rfl
    case sends =>
      intro duties waits
      have heats (op : Op) : op.isWaitingHeat c = waits op := by
        rw [Bool.eq_iff_iff]
        simp [Op.isWaitingHeat, waits]
      have body : e4.granted.cells.flatMap u8 = duties := by
        rw [Bank.cells_eq, List.flatMap_map, allPos_eq]
      have waiting : v.ops.any waits = s.ops.any waits := by
        rw [show waits = fun op => op.isWaitingHeat c from funext fun op => (heats op).symm]
        exact collected.shared_heat starts e4
      rw [exec_heatPeriodExpiry running, State.heatExpiry_eq timer ((congrArg (State.grantUnits · c) d_eq).trans shared)]
      refine congrArg (fun w => Host.Outcome.next (State.transmit w)) ((State.sendHeat_eq (v := v) heats body).trans ?_)
      rw [show v.reachable c = s.reachable c from collected.shared_reachable starts e4, waiting]

end Sys2Proof.Machine
end
